-- ==== Sys2Proof/Word.lean ====
section
/-! DEFINITION. The word, byte and block types of the engine (spec 00_scope.md R8, R11, R12): every value is
unsigned and every addition wraps, which is what `BitVec` arithmetic does. Byte order and bit fields are in
Machine/Operands.lean. -/

namespace Sys2Proof

/-- A byte of a message, key, salt, personalization, block or digest. -/
abbrev Byte := BitVec 8

/-- The engine's 32-bit word (R8 "word width W"). -/
abbrev Word := BitVec 32

/-- A 64-byte block (R8 "block size BB"), byte 0 first. -/
abbrev Block := Vector Byte 64

end Sys2Proof
end

