-- ==== Sys2Proof/Syntax.lean ====
section
/-! DEFINITION. The engine's instructions: one constructor per row of spec/opcode_table.json (30_encoding.md R92).
An instruction is a command word the host writes to CMD (R90); the only operand a word carries is ABSORB's
byte count (R93, R94). -/

namespace Sys2Proof

/-- The four commands (R92). -/
inductive Instr where
  /-- NOP (R256): does nothing. -/
  | nop
  /-- INIT (R210): validate the parameters and build a new context. -/
  | init
  /-- ABSORB CNT (R195): absorb `cnt` bytes of DATA, lane 0 first. `cnt` is the 3-bit field `w[6:4]` (R93). -/
  | absorb (cnt : BitVec 3)
  /-- DIGEST (R230): finalise a snapshot and extract the digest. -/
  | digest
  deriving DecidableEq, Repr

end Sys2Proof
end

