-- ==== Sys2Proof/WellFormed.lean ====
section
/-! DEFINITION. When an instruction term stands for a legal command word (30_encoding.md R93, R95): the one
operand check is ABSORB's count, whose legal values are 0..4. -/

namespace Sys2Proof

/-- R93, R95: `CNT <= 4` for ABSORB; the other commands carry no operand. -/
def Instr.wellFormed : Instr → Bool
  | .nop => true
  | .init => true
  | .absorb cnt => decide (cnt.toNat ≤ 4)
  | .digest => true

end Sys2Proof
end

