-- ==== Sys2Proof/Decode.lean ====
section
/-! DEFINITION. The decoder of command words, total on all 2^32 of them and rejecting by name
(30_encoding.md R91 to R97), and after it the encoder written from the same format. -/

namespace Sys2Proof

/-- R91: OP = w[3:0]. -/
def opField (w : Word) : BitVec 4 := w.extractLsb' 0 4

/-- R91, R93: CNT = w[6:4]. -/
def cntField (w : Word) : BitVec 3 := w.extractLsb' 4 3

/-- R91: RSV = w[31:7]. -/
def rsvField (w : Word) : BitVec 25 := w.extractLsb' 7 25

/-- Why a word is illegal (R95). The engine refuses every illegal word the same way (ILLEGAL_CMD). -/
inductive Rejection where
  /-- `w[31:7] ≠ 0`. -/
  | reservedBits
  /-- OP is one of 0x4..0xF. -/
  | reservedOp
  /-- ABSORB with CNT in 5..7. -/
  | countTooLarge
  /-- CNT ≠ 0 on NOP, INIT or DIGEST. -/
  | countNotZero
  deriving DecidableEq, Repr

/-- What the decoder makes of a word: an instruction, or a rejection by name. -/
inductive Decoded where
  | instr (i : Instr)
  | rejected (why : Rejection)
  deriving DecidableEq, Repr

/-- A command that carries no count: CNT must be 0 (R93, R95). -/
def withoutCount (cnt : BitVec 3) (i : Instr) : Decoded :=
  if cnt = 0 then .instr i else .rejected .countNotZero

/-- ABSORB with its count, at most 4 (R93, R95). -/
def withCount (cnt : BitVec 3) : Decoded :=
  if cnt.toNat ≤ 4 then .instr (.absorb cnt) else .rejected .countTooLarge

/-- R92, R95: the decoder. -/
def decode (w : Word) : Decoded :=
  if rsvField w ≠ 0 then .rejected .reservedBits
  else if opField w = 0x0 then withoutCount (cntField w) .nop
  else if opField w = 0x1 then withoutCount (cntField w) .init
  else if opField w = 0x2 then withCount (cntField w)
  else if opField w = 0x3 then withoutCount (cntField w) .digest
  else .rejected .reservedOp

/-- R92: the OP field of each command. -/
def opCode : Instr → BitVec 4
  | .nop => 0x0
  | .init => 0x1
  | .absorb _ => 0x2
  | .digest => 0x3

/-- R93: the CNT field of each command. -/
def cntCode : Instr → BitVec 3
  | .nop => 0
  | .init => 0
  | .absorb cnt => cnt
  | .digest => 0

/-- R91: the command word of an instruction, RSV, CNT and OP from the top bit down. -/
def encode (i : Instr) : Word :=
  (0 : BitVec 25) ++ cntCode i ++ opCode i

/-- The instruction the decoder reads from a table word of `nbits` bits, bit 0 the least significant of the one
32-bit command word (R90); the bits above `nbits` are 0. -/
def decodeTableWord (nbits w : Nat) : Option Instr :=
  match decode (BitVec.ofNat 32 (w % 2 ^ nbits)) with
  | .instr i => some i
  | .rejected _ => none

end Sys2Proof
end

