-- ==== Sys2Proof/Config.lean ====
section
/-! DEFINITION. What an implementation fixes and what the spec leaves open (00_scope.md R9, 93_implementation_defined.md
part 1). Both constants are opaque without a body: no proof can see a value of them. -/

namespace Sys2Proof

/-- The free values of the model (log entry 2): one value of `w` bits for each `draw` and each `slot` of a draw.
A draw is numbered by the counter `State.draws`, which every draw advances, so no law relates two draws
(93_implementation_defined.md U1, U3, U5 "any value"). -/
opaque Config.freeBits : (draw slot w : Nat) → BitVec w

/-- The number of the 256-byte window the platform gives the engine (R9 `BASE`, U7); see `Config.base`. -/
opaque Config.windowIndex : Nat

/-- R9, R64: `BASE`, the byte address of the register window, a multiple of 0x100 chosen by the platform. -/
def Config.base : Nat := 0x100 * Config.windowIndex

end Sys2Proof
end

