-- ==== Sys2Proof/Machine/State.lean ====
section
/-! DEFINITION. The engine's state as plain data (spec 10_state.md, and 20_memory.md R60 for the pins), grouped as
the spec groups it, the reasons a step can stop (there is no fault), and the state right after reset
(70_reset_and_hazards.md R302). Word arrays are vectors of the spec's length; BUSY is the view `State.busy` of the
controller state (Machine/Flags.lean). -/

namespace Sys2Proof.Machine

/-- The live hash context (R20 to R24). -/
structure Context where
  /-- R20: the chaining state `h[0..7]`. -/
  h : Vector Word 8
  /-- R21: the 64-bit byte counter. -/
  t : BitVec 64
  /-- R22: the block buffer; only the first `bufIdx` bytes are meaningful. -/
  buf : Block
  /-- R23: the fill count, 7 bits, 0..64 by the invariant R26. -/
  bufIdx : BitVec 7
  /-- R24: the digest size, 6 bits, 1..32 by the invariant R26. -/
  ds : BitVec 6
  deriving DecidableEq, Repr

/-- The states of the round-loop controller (R170). `r`, `j` and `k` of `C_G(r, j)` and `BYTE(k)` are the index
registers of `Controller`. -/
inductive Ctl where
  | idle
  | iSeed
  | byte
  | dSnap
  | cLoad
  | cG
  | cOut
  | dOut
  deriving DecidableEq, Repr

/-- R32: which command the controller runs. -/
inductive Caller where
  | init
  | absorb
  | digest
  deriving DecidableEq, Repr

/-- R32: where `C_OUT` returns to: `BYTE'(k)` (R193) or `D_OUT` (R231). -/
inductive Ret where
  | byteTail
  | dOut
  deriving DecidableEq, Repr

/-- The controller's registers (R32). -/
structure Controller where
  ctl : Ctl
  /-- The round index, 0..9. -/
  r : Fin 10
  /-- The index of the G call within the round, 0..7. -/
  j : Fin 8
  /-- The byte index of the command's byte loop: 7 bits. -/
  k : BitVec 7
  caller : Caller
  ret : Ret
  deriving DecidableEq, Repr

/-- The datapath registers (R27 to R30). -/
structure Datapath where
  /-- R27: the working vector. -/
  v : Vector Word 16
  /-- R28: the message words. -/
  m : Vector Word 16
  /-- R29: the final-block flag of the running compression. -/
  fin : Bool
  /-- R30: the snapshot chaining state. -/
  hs : Vector Word 8
  /-- R30: the snapshot counter. -/
  ts : BitVec 64
  deriving DecidableEq, Repr

/-- The latched operands (R31), copied at acceptance (R253). -/
structure Latches where
  /-- L_PARAM. -/
  param : Word
  /-- L_KEY[0..7]. -/
  key : Vector Word 8
  /-- L_SALT[0..1]. -/
  salt : Vector Word 2
  /-- L_PERS[0..1]. -/
  pers : Vector Word 2
  /-- L_DATA. -/
  data : Word
  /-- L_CNT. -/
  cnt : BitVec 3
  deriving DecidableEq, Repr

/-- The host-written operand registers (R43 to R47). -/
structure OperandRegs where
  /-- R43: PARAM. -/
  param : Word
  /-- R44: DATA. -/
  data : Word
  /-- R45: SALT0, SALT1. -/
  salt : Vector Word 2
  /-- R46: PERS0, PERS1. -/
  pers : Vector Word 2
  /-- R47: KEY0..KEY7 (write-only). -/
  key : Vector Word 8
  deriving DecidableEq, Repr

/-- R271: the error codes; 5..15 are never produced, so they are no values of this type. -/
inductive ErrCode where
  /-- 0: no error recorded since ERR was last cleared. -/
  | none
  /-- 1: the source's ParameterError (R273). -/
  | param
  /-- 2: an illegal command word (R274). -/
  | illegalCmd
  /-- 3: ABSORB or DIGEST without a context (R275). -/
  | noContext
  /-- 4: a CMD write while BUSY = 1 (R276). -/
  | busyCmd
  deriving DecidableEq, Repr

/-- The stored fields of STATUS (R25, R42). BUSY and BUFIDX are views of `Controller.ctl` and `Context.bufIdx`. -/
structure Status where
  ctxValid : Bool
  dvalid : Bool
  err : Bool
  errCode : ErrCode
  /-- PCAUSE: bit 0 salt, bit 1 personalization, bit 2 key, bit 3 digest size (R42, R121). -/
  pcause : BitVec 4
  deriving DecidableEq, Repr

/-- R40: the register at an aligned offset of the window. -/
inductive Reg where
  | cmd
  | status
  | param
  | data
  | salt (i : Fin 2)
  | pers (i : Fin 2)
  | key (i : Fin 8)
  | digest (i : Fin 8)
  | countLo
  | countHi
  | reserved
  deriving DecidableEq, Repr

/-- The input pins in one clock cycle (R60), and how many controller steps the implementation takes in that cycle
(any number: U6, log entry 4). -/
structure Cycle where
  rst : Bool
  sel : Bool
  we : Bool
  addr : BitVec 8
  be : BitVec 4
  wdata : Word
  engineSteps : Nat
  deriving DecidableEq, Repr

/-- The output pins of the last cycle (R60). `rdata` is valid only in the cycle a read completes: `none` in the
others. The third output, `busy`, is `State.busy`. -/
structure Outputs where
  ready : Bool
  rdata : Option Word
  deriving DecidableEq, Repr

/-- The whole machine. `inputs` and `draws` are the model's own fields: the bus cycles still to be served, oldest
first (log entry 3), and the number of free values drawn so far (log entry 2). -/
structure State where
  ctx : Context
  ctrl : Controller
  dp : Datapath
  latches : Latches
  regs : OperandRegs
  status : Status
  /-- R34: the digest storage `dreg[0..7]`. -/
  dreg : Vector Word 8
  out : Outputs
  inputs : List Cycle
  draws : Nat
  deriving DecidableEq, Repr

/-- Faults: none. R270: an error never transfers control and is recorded in STATUS (`raiseError`); no rule of the
spec stops the engine (R255 "The engine never hangs"), so the type has no constructor. -/
inductive Fault where
  deriving DecidableEq, Repr

/-- Refusals: only that of an instruction that has no meaning yet. -/
inductive Refusal where
  /-- Raised by `exec` for an instruction without a meaning; safe. No arm of `exec` raises it. -/
  | notModelled (mnemonic : String)
  deriving DecidableEq, Repr

/-! One update per field, the only way the model writes the state. -/

def State.withCtx (s : State) (x : Context) : State := { s with ctx := x }
def State.withCtrl (s : State) (x : Controller) : State := { s with ctrl := x }
def State.withDp (s : State) (x : Datapath) : State := { s with dp := x }
def State.withLatches (s : State) (x : Latches) : State := { s with latches := x }
def State.withRegs (s : State) (x : OperandRegs) : State := { s with regs := x }
def State.withStatus (s : State) (x : Status) : State := { s with status := x }
def State.withDreg (s : State) (x : Vector Word 8) : State := { s with dreg := x }
def State.withOut (s : State) (x : Outputs) : State := { s with out := x }
def State.withInputs (s : State) (x : List Cycle) : State := { s with inputs := x }
def State.withDraws (s : State) (x : Nat) : State := { s with draws := x }

/-- R40, R43 to R47, R300: the operand registers are 0 after reset. -/
def OperandRegs.reset : OperandRegs :=
  { param := 0, data := 0, salt := Vector.replicate 2 0, pers := Vector.replicate 2 0, key := Vector.replicate 8 0 }

/-- R42, R300: every field of STATUS is 0 after reset. -/
def Status.reset : Status :=
  { ctxValid := false, dvalid := false, err := false, errCode := .none, pcause := 0 }

/-- The machine right after reset (R302). STATUS, the operand registers and `ctl` are the spec's values. The context
(`RESET_CTX`), the datapath, the latches, the other controller registers and `dreg` are unspecified there and are 0
here: DESIGN CHOICE, log entry 1, unsafe. The output pins show no access: DESIGN CHOICE, log entry 5. -/
def State.reset : State :=
  { ctx := { h := Vector.replicate 8 0, t := 0, buf := Vector.replicate 64 0, bufIdx := 0, ds := 0 },
    ctrl := { ctl := .idle, r := 0, j := 0, k := 0, caller := .init, ret := .byteTail },
    dp := { v := Vector.replicate 16 0, m := Vector.replicate 16 0, fin := false, hs := Vector.replicate 8 0, ts := 0 },
    latches := { param := 0, key := Vector.replicate 8 0, salt := Vector.replicate 2 0, pers := Vector.replicate 2 0,
                 data := 0, cnt := 0 },
    regs := OperandRegs.reset,
    status := Status.reset,
    dreg := Vector.replicate 8 0,
    out := { ready := false, rdata := none },
    inputs := [],
    draws := 0 }

end Sys2Proof.Machine
end

