-- ==== Sys2Proof/Machine/Operands.lean ====
section
/-! DEFINITION. Byte order and operand forms: packing and unpacking of words (00_scope.md R13, 20_memory.md R61 to R63),
the fields of PARAM (10_state.md R43, 40_param_block.md R120), and the byte sequences the register arrays carry. -/

namespace Sys2Proof.Machine

/-- R13: `LE32(b0,b1,b2,b3)`. -/
def le32 (b0 b1 b2 b3 : Byte) : Word :=
  b0.setWidth 32 ||| b1.setWidth 32 <<< 8 ||| b2.setWidth 32 <<< 16 ||| b3.setWidth 32 <<< 24

/-- R13: `byte(w, j) = w[8j+7:8j]`. -/
def byteOf (w : Word) (j : Nat) : Byte := w.extractLsb' (8 * j) 8

/-- R61: byte `i` of the sequence an array of registers carries, lane `i mod 4` of register `i / 4`. -/
def laneByte {n : Nat} (ws : Vector Word n) (i : Nat) (h : i < 4 * n) : Byte :=
  byteOf (ws[i / 4]'(by omega)) (i % 4)

/-- R62: the 16 little-endian words of a 64-byte block; R127 reads the parameter block the same way. -/
def blockWords (B : Block) : Vector Word 16 :=
  Vector.ofFn fun i => le32 B[4 * i.val] B[4 * i.val + 1] B[4 * i.val + 2] B[4 * i.val + 3]

/-- R43, R120: DS = PARAM[7:0]. -/
def dsField (param : Word) : Byte := param.extractLsb' 0 8

/-- R43, R120: KL = PARAM[15:8]. -/
def klField (param : Word) : Byte := param.extractLsb' 8 8

/-- R43, R120: SL = PARAM[23:16]. -/
def slField (param : Word) : Byte := param.extractLsb' 16 8

/-- R43, R120: PL = PARAM[31:24]. -/
def plField (param : Word) : Byte := param.extractLsb' 24 8

/-- R122: the effective digest size `ds'`. -/
def effectiveDs (param : Word) : Byte := if dsField param = 0 then 32 else dsField param

/-- R125, R126, R212: bytes at indices from the stated length on count as 0. -/
def byteWithin (i : Nat) (len b : Byte) : Byte := if i < len.toNat then b else 0

/-- R21: the low counter word. -/
def tLo (t : BitVec 64) : Word := t.extractLsb' 0 32

/-- R21: the high counter word. -/
def tHi (t : BitVec 64) : Word := t.extractLsb' 32 32

end Sys2Proof.Machine
end

