-- ==== Sys2Proof/Machine/Mixing.lean ====
section
/-! DEFINITION. The mixing primitive G (41_mixing.md R140 to R144). -/

namespace Sys2Proof.Machine

/-- R141: right rotation of a word. -/
def rotr (x : Word) (n : Nat) : Word := x >>> n ||| x <<< (32 - n)

/-- R142: G, each statement reading the results of the ones before it, with the indices in any relation (R144). -/
def mixG (a b c d : Fin 16) (x y : Word) (v : Vector Word 16) : Vector Word 16 :=
  let v := v.set a (v[a] + v[b] + x)
  let v := v.set d (rotr (v[d] ^^^ v[a]) 16)
  let v := v.set c (v[c] + v[d])
  let v := v.set b (rotr (v[b] ^^^ v[c]) 12)
  let v := v.set a (v[a] + v[b] + y)
  let v := v.set d (rotr (v[d] ^^^ v[a]) 8)
  let v := v.set c (v[c] + v[d])
  v.set b (rotr (v[b] ^^^ v[c]) 7)

end Sys2Proof.Machine
end

