-- ==== Sys2Proof/Machine/Compression.lean ====
section
/-! DEFINITION. The constant tables and the compression transform as a pure function (42_compression.md R160 to R168).
The round-loop controller (Machine/Controller.lean) applies the same pieces one step at a time. -/

namespace Sys2Proof.Machine

/-- R163: the initialization vector. -/
def iv : Vector Word 8 :=
  #v[0x6A09E667, 0xBB67AE85, 0x3C6EF372, 0xA54FF53A, 0x510E527F, 0x9B05688C, 0x1F83D9AB, 0x5BE0CD19]

/-- R164: the message permutation table, one row a round. -/
def sigma : Vector (Vector (Fin 16) 16) 10 :=
  #v[#v[ 0,  1,  2,  3,  4,  5,  6,  7,  8,  9, 10, 11, 12, 13, 14, 15],
     #v[14, 10,  4,  8,  9, 15, 13,  6,  1, 12,  0,  2, 11,  7,  5,  3],
     #v[11,  8, 12,  0,  5,  2, 15, 13, 10, 14,  3,  6,  7,  1,  9,  4],
     #v[ 7,  9,  3,  1, 13, 12, 11, 14,  2,  6,  5, 10,  4,  0, 15,  8],
     #v[ 9,  0,  5,  7,  2,  4, 10, 15, 14,  1, 11, 12,  6,  8,  3, 13],
     #v[ 2, 12,  6, 10,  0, 11,  8,  3,  4, 13,  7,  5, 15, 14,  1,  9],
     #v[12,  5,  1, 15, 14, 13,  4, 10,  0,  7,  6,  3,  9,  2,  8, 11],
     #v[13, 11,  7, 14, 12,  1,  3,  9,  5,  0, 15,  4,  8,  6,  2, 10],
     #v[ 6, 15, 14,  9, 11,  3,  0,  8, 12,  2, 13,  7,  1,  4, 10,  5],
     #v[10,  2,  8,  4,  7,  6,  1,  5, 15, 11,  9, 14,  3, 12, 13,  0]]

/-- R165: the index group `(a, b, c, d)` of each G call of a round. -/
def groups : Vector (Fin 16 × Fin 16 × Fin 16 × Fin 16) 8 :=
  #v[(0, 4, 8, 12), (1, 5, 9, 13), (2, 6, 10, 14), (3, 7, 11, 15),
     (0, 5, 10, 15), (1, 6, 11, 12), (2, 7, 8, 13), (3, 4, 9, 14)]

/-- R166: G call `j` of round `r` on the message words `m`. -/
def mixCall (m : Vector Word 16) (r : Fin 10) (j : Fin 8) (v : Vector Word 16) : Vector Word 16 :=
  let s := sigma[r]
  let (a, b, c, d) := groups[j]
  mixG a b c d m[s[2 * j.val]] m[s[2 * j.val + 1]] v

/-- R166: round `r`, the calls in the order j = 0, 1, ..., 7. -/
def mixRound (m : Vector Word 16) (r : Fin 10) (v : Vector Word 16) : Vector Word 16 :=
  (List.finRange 8).foldl (fun v j => mixCall m r j v) v

/-- R167: the 10 rounds. -/
def rounds (m : Vector Word 16) (v : Vector Word 16) : Vector Word 16 :=
  (List.finRange 10).foldl (fun v r => mixRound m r v) v

/-- R161, R162: the working vector after steps 2 to 4. -/
def initVector (H : Vector Word 8) (T : BitVec 64) (F : Bool) : Vector Word 16 :=
  let v : Vector Word 16 := H ++ iv
  let v := v.set 12 (v[12] ^^^ tLo T)
  let v := v.set 13 (v[13] ^^^ tHi T)
  bif F then v.set 14 (~~~v[14]) else v

/-- R168: the output words. -/
def outWords (H : Vector Word 8) (v : Vector Word 16) : Vector Word 8 :=
  Vector.ofFn fun i => H[i] ^^^ v[i.val] ^^^ v[i.val + 8]

/-- R160 to R168: `Compress(H, B, T, F)`. -/
def compress (H : Vector Word 8) (B : Block) (T : BitVec 64) (F : Bool) : Vector Word 8 :=
  outWords H (rounds (blockWords B) (initVector H T F))

end Sys2Proof.Machine
end

