-- ==== Sys2Proof/Machine/Flags.lean ====
section
/-! DEFINITION. The STATUS fields: BUSY, the error codes, the parameter check that gives PCAUSE, and the composed word
(10_state.md R42, 40_param_block.md R121, 60_exceptions.md R271). -/

namespace Sys2Proof.Machine

/-- R42 bit 0, R170, R254: BUSY is 1 exactly while the controller is out of IDLE (log entry 6). -/
def State.busy (s : State) : Bool := s.ctrl.ctl != .idle

/-- R271: the 4-bit code of an error. -/
def ErrCode.bits : ErrCode → BitVec 4
  | .none => 0
  | .param => 1
  | .illegalCmd => 2
  | .noContext => 3
  | .busyCmd => 4

/-- R121: `pcause`, every violated constraint at once; bit 0 is the salt's. -/
def pcauseOf (param : Word) : BitVec 4 :=
  BitVec.ofBool (decide (32 < (dsField param).toNat)) ++ BitVec.ofBool (decide (32 < (klField param).toNat)) ++
    BitVec.ofBool (decide (8 < (plField param).toNat)) ++ BitVec.ofBool (decide (8 < (slField param).toNat))

/-- R121: `ParamOK` holds iff `pcause = 0`. -/
def paramOK (param : Word) : Bool := pcauseOf param == 0

/-- R42: the STATUS word, from bit 31 down, with the BUFIDX field given. -/
def statusBits (bufIdxField : BitVec 7) (st : Status) (busy : Bool) : Word :=
  (0 : BitVec 9) ++ bufIdxField ++ st.pcause ++ st.errCode.bits ++ (0 : BitVec 4) ++ BitVec.ofBool st.err ++
    BitVec.ofBool st.dvalid ++ BitVec.ofBool st.ctxValid ++ BitVec.ofBool busy

/-- R42, R49, U3: the reads that are unspecified are those of BUFIDX and COUNT while BUSY = 1 and CTX_VALID = 1. -/
def State.readsFree (s : State) : Bool := s.busy && s.status.ctxValid

/-- R42: the BUFIDX field of a read of STATUS. The free value is draw `s.draws` (log entry 2). -/
def State.bufIdxField (s : State) : BitVec 7 :=
  bif s.status.ctxValid then
    bif s.busy then Config.freeBits s.draws 0 7 else s.ctx.bufIdx
  else 0

/-- R42: what a read of STATUS returns. -/
def State.statusWord (s : State) : Word := statusBits s.bufIdxField s.status s.busy

/-- R49: what a read of COUNT_LO or COUNT_HI returns, `field` being `tLo` or `tHi` of the counter. -/
def State.countWord (s : State) (field : BitVec 64 → Word) : Word :=
  bif s.status.ctxValid then
    bif s.busy then Config.freeBits s.draws 0 32 else field s.ctx.t
  else 0

end Sys2Proof.Machine
end

