-- ==== Sys2Proof/Machine/Ops.lean ====
section
/-! DEFINITION. The shared operations of the meanings: recording an error and clearing it (what stands in for exception
entry and return, 60_exceptions.md R270 to R279), acceptance of a command (46_command_control.md R251, R253), and the
host's stores to operand registers (R250). -/

namespace Sys2Proof.Machine

/-- Continue from a next state; a fault or a refusal stays as it is. -/
def onNext (o : Host.Outcome State Fault Refusal) (f : State → State) : Host.Outcome State Fault Refusal :=
  match o with
  | .next s => .next (f s)
  | .fault r => .fault r
  | .refused r => .refused r

/-- R272 `raise EngineError(code, pcause)`: record the error if none is recorded, and nothing else. -/
def raiseError (code : ErrCode) (pcause : BitVec 4) (s : State) : State :=
  bif s.status.err then s
  else s.withStatus { s.status with err := true, errCode := code, pcause := pcause }

/-- R42, R279: the return from an error, `ERR <- 0`, `ERRCODE <- 0`, `PCAUSE <- 0`. -/
def clearError (s : State) : State :=
  s.withStatus { s.status with err := false, errCode := .none, pcause := 0 }

/-- R42: `BusWrite(0x04, w)`; only bit 3 of `w` acts. -/
def writeStatus (w : Word) (s : State) : State := bif w.getLsbD 3 then clearError s else s

/-- R251: the checks a command passes before its own effect, in order: BUSY, legality (which on a decoded
instruction can only be its operand check), and, for a command that needs one, the context. -/
def accepting (legal needsCtx : Bool) (s : State) (effect : State → State) : State :=
  bif s.busy then raiseError .busyCmd 0 s
  else bif !legal then raiseError .illegalCmd 0 s
  else bif needsCtx && !s.status.ctxValid then raiseError .noContext 0 s
  else effect s

/-- R253: the latching of INIT. -/
def latchInit (s : State) : State :=
  s.withLatches { s.latches with
    param := s.regs.param, key := s.regs.key, salt := s.regs.salt, pers := s.regs.pers }

/-- R253: the latching of ABSORB. -/
def latchAbsorb (cnt : BitVec 3) (s : State) : State :=
  s.withLatches { s.latches with data := s.regs.data, cnt := cnt }

/-- R210, R195, R230: DVALID is cleared at acceptance. -/
def clearDvalid (s : State) : State := s.withStatus { s.status with dvalid := false }

/-- R210, R213: CTX_VALID is cleared at INIT's acceptance and set at its completion. -/
def setCtxValid (b : Bool) (s : State) : State := s.withStatus { s.status with ctxValid := b }

/-- R14 `ctl <- S`. -/
def goto (c : Ctl) (s : State) : State := s.withCtrl { s.ctrl with ctl := c }

/-- R40: the register map. An offset is taken down to its word; accesses that are not aligned never get here (R65). -/
def regAt (off : BitVec 8) : Reg :=
  let w := off.toNat / 4
  if w = 0x00 then .cmd
  else if w = 0x01 then .status
  else if w = 0x02 then .param
  else if w = 0x03 then .data
  else if w < 0x06 then .salt (Fin.ofNat 2 (w - 0x04))
  else if w < 0x08 then .pers (Fin.ofNat 2 (w - 0x06))
  else if w < 0x10 then .key (Fin.ofNat 8 (w - 0x08))
  else if w < 0x18 then .digest (Fin.ofNat 8 (w - 0x10))
  else if w = 0x18 then .countLo
  else if w = 0x19 then .countHi
  else .reserved

/-- R250, R43 to R47: the operand registers after a host write. A write to another register stores nothing: DIGEST, COUNT
and the reserved offsets ignore it (R48, R49, R50), and CMD and STATUS are no stores. -/
def storeReg (reg : Reg) (w : Word) (r : OperandRegs) : OperandRegs :=
  match reg with
  | .param => { r with param := w }
  | .data => { r with data := w }
  | .salt i => { r with salt := r.salt.set i w }
  | .pers i => { r with pers := r.pers.set i w }
  | .key i => { r with key := r.key.set i w }
  | .cmd => r
  | .status => r
  | .digest _ => r
  | .countLo => r
  | .countHi => r
  | .reserved => r

/-- R250: a host store. -/
def storeOperand (reg : Reg) (w : Word) (s : State) : State := s.withRegs (storeReg reg w s.regs)

/-- R41 to R50: what a read returns. CMD, KEY and the reserved offsets read 0. -/
def readReg (reg : Reg) (s : State) : Word :=
  match reg with
  | .cmd => 0
  | .status => s.statusWord
  | .param => s.regs.param
  | .data => s.regs.data
  | .salt i => s.regs.salt[i]
  | .pers i => s.regs.pers[i]
  | .key _ => 0
  | .digest i => bif s.status.dvalid then s.dreg[i] else 0
  | .countLo => s.countWord tLo
  | .countHi => s.countWord tHi
  | .reserved => 0

/-- Whether a read draws a free value (U3). -/
def readDraws (reg : Reg) (s : State) : Bool :=
  s.readsFree && (reg == .status || reg == .countLo || reg == .countHi)

end Sys2Proof.Machine
end

