-- ==== Sys2Proof/Machine/Finalizer.lean ====
section
/-! DEFINITION. The final-block padding, the digest extractor and the DIGEST command (45_finalizer.md R230 to R237). -/

namespace Sys2Proof.Machine

/-- R231: the snapshot counter `t + zext_64(bufIdx)`, modulo 2^64. -/
def snapshotCounter (c : Context) : BitVec 64 := c.t + c.bufIdx.setWidth 64

/-- R232: the padded block `PadB`. -/
def padBlock (c : Context) : Block :=
  Vector.ofFn fun i => if i.val < c.bufIdx.toNat then c.buf[i] else 0

/-- R234: the digest bytes `D8[0..31]`, 0 from index `ds` on. -/
def digestBytes (hs : Vector Word 8) (ds : BitVec 6) : Vector Byte 32 :=
  Vector.ofFn fun k => if k.val < ds.toNat then laneByte hs k.val (by omega) else 0

/-- R234: the digest registers. -/
def extractDigest (hs : Vector Word 8) (ds : BitVec 6) : Vector Word 8 :=
  let d := digestBytes hs ds
  Vector.ofFn fun i => le32 d[4 * i.val] d[4 * i.val + 1] d[4 * i.val + 2] d[4 * i.val + 3]

/-- R232: the snapshot's final chaining state. -/
def finalState (c : Context) : Vector Word 8 := compress c.h (padBlock c) (snapshotCounter c) true

/-- R230: DIGEST once the checks are passed: DVALID <- 0, BUSY <- 1, `ctl <- D_SNAP`. -/
def acceptDigest (s : State) : State := goto .dSnap (clearDvalid s)

/-- The meaning of DIGEST (R230). -/
def execDigest (s : State) : Host.Outcome State Fault Refusal :=
  .next (accepting true true s acceptDigest)

/-- R237: one lowercase hexadecimal digit (host driver). -/
def hexChar (n : BitVec 4) : Char := "0123456789abcdef".toList.getD n.toNat '0'

/-- R237: the hex accessor of the host driver, high nibble first. -/
def digestHex (d : List Byte) : List Char :=
  d.flatMap fun b => [hexChar (b.extractLsb' 4 4), hexChar (b.extractLsb' 0 4)]

end Sys2Proof.Machine
end

