-- ==== Sys2Proof/Machine/ParamBlock.lean ====
section
/-! DEFINITION. The parameter-block encoder (40_param_block.md R120 to R127) and the key block (44_initializer.md R212):
combinational functions of INIT's latched operands. The validity check is `paramOK` in Machine/Flags.lean. -/

namespace Sys2Proof.Machine

/-- R123 to R126: the 64 bytes `PB8`. -/
def paramBytes (param : Word) (salt pers : Vector Word 2) : Block :=
  Vector.ofFn fun i =>
    if i.val = 0 then effectiveDs param
    else if i.val = 1 then klField param
    else if i.val = 2 then 1
    else if i.val = 3 then 1
    else if h : 16 ≤ i.val ∧ i.val < 24 then
      byteWithin (i.val - 16) (slField param) (laneByte salt (i.val - 16) (by omega))
    else if h : 24 ≤ i.val ∧ i.val < 32 then
      byteWithin (i.val - 24) (plField param) (laneByte pers (i.val - 24) (by omega))
    else 0

/-- R127: the word view `PB[0..15]`, every word little-endian. -/
def paramWords (param : Word) (salt pers : Vector Word 2) : Vector Word 16 :=
  blockWords (paramBytes param salt pers)

/-- R212: the key block `KB`, the key left-aligned and zero-padded. -/
def keyBlock (param : Word) (key : Vector Word 8) : Block :=
  Vector.ofFn fun i =>
    if h : i.val < 32 then byteWithin i.val (klField param) (laneByte key i.val (by omega)) else 0

end Sys2Proof.Machine
end

