-- ==== Sys2Proof/Machine/Streaming.lean ====
section
/-! DEFINITION. The streaming-buffer manager and the ABSORB command (43_streaming.md R190 to R196). -/

namespace Sys2Proof.Machine

/-- R191: the buffer is full. -/
def Context.full (c : Context) : Bool := c.bufIdx == 64

/-- R191, R192: advance the counter past a full block. -/
def advanceCounter (c : Context) : Context := { c with t := c.t + 64 }

/-- R191: store a byte at the fill position and advance the fill count. A position past the buffer exists in no
context a run reaches (R26); the byte is then dropped (log entry 8). -/
def storeByte (b : Byte) (c : Context) : Context :=
  { c with buf := c.buf.setIfInBounds c.bufIdx.toNat b, bufIdx := c.bufIdx + 1 }

/-- R191: absorb one byte as one operation on the context, compressing first when the buffer is full (the lazy
rule). -/
def absorbByte (c : Context) (b : Byte) : Context :=
  bif c.full then
    let c := advanceCounter c
    storeByte b { c with h := compress c.h c.buf c.t false, bufIdx := 0 }
  else storeByte b c

/-- R193, R195: absorb a byte sequence in order. -/
def absorbBytes (bs : List Byte) (c : Context) : Context := bs.foldl absorbByte c

/-- R93: the bytes of DATA an ABSORB takes, lane 0 first. -/
def dataBytes (data : Word) (cnt : BitVec 3) : List Byte := (List.range cnt.toNat).map (byteOf data)

/-- R195: ABSORB once the checks are passed: DVALID <- 0, BUSY <- 1 and the byte loop starts at byte 0. The engine's own
steps (Machine/Controller.lean) then absorb the bytes and complete the command. -/
def acceptAbsorb (cnt : BitVec 3) (s : State) : State :=
  let s := clearDvalid (latchAbsorb cnt s)
  s.withCtrl { s.ctrl with ctl := .byte, k := 0, caller := .absorb }

/-- The meaning of ABSORB (R195), whose legality test is `CNT <= 4` (R95). -/
def execAbsorb (cnt : BitVec 3) (s : State) : Host.Outcome State Fault Refusal :=
  .next (accepting (decide (cnt.toNat ≤ 4)) true s (acceptAbsorb cnt))

end Sys2Proof.Machine
end

