-- ==== Sys2Proof/Machine/Initializer.lean ====
section
/-! DEFINITION. The INIT command (44_initializer.md R210 to R214). -/

namespace Sys2Proof.Machine

/-- R211 `I_SEED`: the seeded context. `buf` is not cleared. -/
def seedContext (l : Latches) (c : Context) : Context :=
  { c with
    h := Vector.ofFn fun i => iv[i] ^^^ (paramWords l.param l.salt l.pers)[i.val]
    t := 0
    bufIdx := 0
    ds := (effectiveDs l.param).setWidth 6 }

/-- R212: whether INIT absorbs a key block. -/
def hasKey (l : Latches) : Bool := klField l.param != 0

/-- R210: INIT once the checks are passed: latch, DVALID <- 0, CTX_VALID <- 0; then PARAM is raised, or the command
starts at `I_SEED`. -/
def acceptInit (s : State) : State :=
  let s := setCtxValid false (clearDvalid (latchInit s))
  bif paramOK s.latches.param then s.withCtrl { s.ctrl with ctl := .iSeed, caller := .init }
  else raiseError .param (pcauseOf s.latches.param) s

/-- The meaning of INIT (R210). It does not need a context. -/
def execInit (s : State) : Host.Outcome State Fault Refusal :=
  .next (accepting true false s acceptInit)

end Sys2Proof.Machine
end

