-- ==== Sys2Proof/Machine/Controller.lean ====
section
/-! DEFINITION. The round-loop controller: one engine step of the running command (42_compression.md R170,
43_streaming.md R193, 44_initializer.md R211 and R213, 45_finalizer.md R231 and R234). `BYTE'(k)` is a sub-state of
`BYTE(k)` (R193) and takes no step of its own, so that the number of steps is that of R255 (log entry 7). -/

namespace Sys2Proof.Machine

/-- R193: the length of the running command's byte sequence. DIGEST has none. -/
def State.byteCount (s : State) : Nat :=
  match s.ctrl.caller with
  | .init => 64
  | .absorb => s.latches.cnt.toNat
  | .digest => 0

/-- R193, R195, R212: byte `k` of the running command's byte sequence; 0 past the end of the key block, where the loop
never is (log entry 8). -/
def State.commandByte (s : State) : Byte :=
  match s.ctrl.caller with
  | .init => if h : s.ctrl.k.toNat < 64 then (keyBlock s.latches.param s.latches.key)[s.ctrl.k.toNat] else 0
  | .absorb => byteOf s.latches.data s.ctrl.k.toNat
  | .digest => 0

/-- R213: INIT's completion. -/
def initDone (s : State) : State := goto .idle (setCtxValid true s)

/-- R193 `DONE`: the completion of the command that ran the byte loop (R195, R213). -/
def byteDone (s : State) : State :=
  match s.ctrl.caller with
  | .init => initDone s
  | .absorb => goto .idle s
  | .digest => goto .idle s

/-- R193: after byte `k`, the next byte or `DONE`. -/
def byteNext (s : State) : State :=
  if s.ctrl.k.toNat + 1 < s.byteCount then s.withCtrl { s.ctrl with ctl := .byte, k := s.ctrl.k + 1 }
  else byteDone s

/-- R193 `BYTE'(k)` on the context: a buffer still full after its compression is emptied, and the byte is stored. -/
def tailContext (b : Byte) (c : Context) : Context :=
  storeByte b { c with bufIdx := bif c.full then 0 else c.bufIdx }

/-- R193 `BYTE'(k)`: byte `k` is stored, and the loop goes on. -/
def byteTail (s : State) : State := byteNext (s.withCtx (tailContext s.commandByte s.ctx))

/-- R193 `BYTE(k)`: with a full buffer, advance the counter and start the compression that returns to `BYTE'(k)`; else
go to `BYTE'(k)`. With no byte to absorb the command is done (R193 "n = 0"). -/
def byteStep (s : State) : State :=
  if s.ctrl.k.toNat < s.byteCount then
    bif s.ctx.full then
      let s := s.withCtx (advanceCounter s.ctx)
      let s := s.withDp { s.dp with fin := false }
      s.withCtrl { s.ctrl with ret := .byteTail, ctl := .cLoad }
    else byteTail s
  else byteDone s

/-- R211 `I_SEED`. -/
def seedStep (s : State) : State :=
  let s := s.withCtx (seedContext s.latches s.ctx)
  bif hasKey s.latches then s.withCtrl { s.ctrl with ctl := .byte, k := 0 } else initDone s

/-- R231 `D_SNAP`. -/
def snapStep (s : State) : State :=
  let s := s.withDp { s.dp with ts := snapshotCounter s.ctx, fin := true }
  s.withCtrl { s.ctrl with caller := .digest, ret := .dOut, ctl := .cLoad }

/-- R170: the block a compression reads, `Bsrc`. -/
def State.blockSource (s : State) : Block :=
  match s.ctrl.caller with
  | .init => s.ctx.buf
  | .absorb => s.ctx.buf
  | .digest => padBlock s.ctx

/-- R170: the counter a compression reads, `Tsrc`. -/
def State.counterSource (s : State) : BitVec 64 :=
  match s.ctrl.caller with
  | .init => s.ctx.t
  | .absorb => s.ctx.t
  | .digest => s.dp.ts

/-- R170 `C_LOAD`: decode the block and build the working vector from `Hsrc = h`. -/
def loadStep (s : State) : State :=
  let s := s.withDp { s.dp with m := blockWords s.blockSource, v := initVector s.ctx.h s.counterSource s.dp.fin }
  s.withCtrl { s.ctrl with ctl := .cG, r := 0, j := 0 }

/-- R170 `C_G(r, j)`: one G call, and the next state of the round loop. -/
def mixStep (s : State) : State :=
  let t := s.withDp { s.dp with v := mixCall s.dp.m s.ctrl.r s.ctrl.j s.dp.v }
  if hj : s.ctrl.j.val < 7 then t.withCtrl { s.ctrl with j := ⟨s.ctrl.j.val + 1, by omega⟩ }
  else if hr : s.ctrl.r.val < 9 then t.withCtrl { s.ctrl with r := ⟨s.ctrl.r.val + 1, by omega⟩, j := 0 }
  else goto .cOut t

/-- R170: the write of `C_OUT` to `Hdst`. -/
def writeHdst (s : State) : State :=
  let out := outWords s.ctx.h s.dp.v
  match s.ctrl.caller with
  | .init => s.withCtx { s.ctx with h := out }
  | .absorb => s.withCtx { s.ctx with h := out }
  | .digest => s.withDp { s.dp with hs := out }

/-- R170 `C_OUT`: write `Hdst` and go to `ret`. -/
def outStep (s : State) : State :=
  let s := writeHdst s
  match s.ctrl.ret with
  | .byteTail => byteTail s
  | .dOut => goto .dOut s

/-- R234 `D_OUT`. -/
def extractStep (s : State) : State :=
  let s := s.withDreg (extractDigest s.dp.hs s.ctx.ds)
  goto .idle (s.withStatus { s.status with dvalid := true })

/-- R170: one step of the engine. In IDLE it does nothing (R287). -/
def engineStep (s : State) : State :=
  match s.ctrl.ctl with
  | .idle => s
  | .iSeed => seedStep s
  | .byte => byteStep s
  | .dSnap => snapStep s
  | .cLoad => loadStep s
  | .cG => mixStep s
  | .cOut => outStep s
  | .dOut => extractStep s

/-- `n` engine steps. -/
def engineRun : Nat → State → State
  | 0, s => s
  | n + 1, s => engineRun n (engineStep s)

end Sys2Proof.Machine
end

