-- ==== Sys2Proof/Machine/Control.lean ====
section
/-! DEFINITION. The NOP command (46_command_control.md R256). -/

namespace Sys2Proof.Machine

/-- The meaning of NOP (R256): accepted, no state changes. -/
def execNop (s : State) : Host.Outcome State Fault Refusal :=
  .next (accepting true false s fun s => s)

end Sys2Proof.Machine
end

