-- ==== Sys2Proof/Machine/Dispatch.lean ====
section
/-! DEFINITION. The dispatch of an instruction to its meaning (46_command_control.md R251), one arm per constructor. -/

namespace Sys2Proof.Machine

def exec (i : Instr) (s : State) : Host.Outcome State Fault Refusal :=
  match i with
  | .nop => Sys2Proof.Machine.execNop s
  | .init => Sys2Proof.Machine.execInit s
  | .absorb cnt => Sys2Proof.Machine.execAbsorb cnt s
  | .digest => Sys2Proof.Machine.execDigest s

end Sys2Proof.Machine
end

