-- ==== Sys2Proof/Machine/Bus.lean ====
section
/-! DEFINITION. The bus slave: serving one host access (20_memory.md R60, R65, R66; 46_command_control.md R250, R251),
the reset edge (70_reset_and_hazards.md R300), and one clock cycle. -/

namespace Sys2Proof.Machine

/-- R60 `BusWrite(off, v)`, in a cycle of one controller step. -/
def Cycle.write (off : BitVec 8) (v : Word) : Cycle :=
  { rst := false, sel := true, we := true, addr := off, be := 0xF, wdata := v, engineSteps := 1 }

/-- R60 `BusRead(off)`, in a cycle of one controller step. -/
def Cycle.read (off : BitVec 8) : Cycle :=
  { rst := false, sel := true, we := false, addr := off, be := 0xF, wdata := 0, engineSteps := 1 }

/-- A cycle with no access and one controller step. -/
def Cycle.quiet : Cycle :=
  { rst := false, sel := false, we := false, addr := 0, be := 0, wdata := 0, engineSteps := 1 }

/-- R65: the only supported access is an aligned 32-bit one. -/
def Cycle.supported (c : Cycle) : Bool := decide (c.addr.toNat % 4 = 0) && c.be == 0xF

/-- R251 `Present(w)`: BUSY is checked first and the word is not examined then; an illegal word is refused; a legal one
is its instruction, whose meaning makes the checks that follow. -/
def present (w : Word) (s : State) : Host.Outcome State Fault Refusal :=
  bif s.busy then .next (raiseError .busyCmd 0 s)
  else
    match decode w with
    | .rejected _ => .next (raiseError .illegalCmd 0 s)
    | .instr i => exec i s

/-- R250: one supported write. -/
def writeReg (reg : Reg) (w : Word) (s : State) : Host.Outcome State Fault Refusal :=
  match reg with
  | .cmd => present w s
  | .status => .next (writeStatus w s)
  | .param => .next (storeOperand .param w s)
  | .data => .next (storeOperand .data w s)
  | .salt i => .next (storeOperand (.salt i) w s)
  | .pers i => .next (storeOperand (.pers i) w s)
  | .key i => .next (storeOperand (.key i) w s)
  | .digest _ => .next s
  | .countLo => .next s
  | .countHi => .next s
  | .reserved => .next s

/-- R250, R65: a write access; an unsupported one is ignored. It completes in its cycle, with no read data. -/
def serveWrite (c : Cycle) (s : State) : Host.Outcome State Fault Refusal :=
  let s := s.withOut { ready := true, rdata := none }
  bif c.supported then writeReg (regAt c.addr) c.wdata s else .next s

/-- R250, R65, R66: a read access; an unsupported one returns 0. A read that returns a free value uses up one draw
(log entry 2), and no read has another effect. -/
def serveRead (c : Cycle) (s : State) : State :=
  bif c.supported then
    let v := readReg (regAt c.addr) s
    let s := bif readDraws (regAt c.addr) s then s.withDraws (s.draws + 1) else s
    s.withOut { ready := true, rdata := some v }
  else s.withOut { ready := true, rdata := some 0 }

/-- R250: what the access of a cycle does, if it presents one. -/
def serve (c : Cycle) (s : State) : Host.Outcome State Fault Refusal :=
  bif c.sel then
    bif c.we then serveWrite c s else .next (serveRead c s)
  else .next (s.withOut { ready := false, rdata := none })

/-- R300: the values an element left unspecified by reset takes: bits of the current draw, one slot each. -/
def freeVector (draw slot w n : Nat) : Vector (BitVec w) n :=
  Vector.ofFn fun i => Config.freeBits draw (slot + i.val) w

/-- R300, R9 `RESET_CTX`: an arbitrary context. -/
def freeContext (draw : Nat) : Context :=
  { h := freeVector draw 0 32 8, t := Config.freeBits draw 8 64, buf := freeVector draw 16 8 64,
    bufIdx := Config.freeBits draw 9 7, ds := Config.freeBits draw 10 6 }

/-- R300, U5: an arbitrary datapath. -/
def freeDatapath (draw : Nat) : Datapath :=
  { v := freeVector draw 100 32 16, m := freeVector draw 120 32 16, fin := (Config.freeBits draw 140 1).getLsbD 0,
    hs := freeVector draw 150 32 8, ts := Config.freeBits draw 141 64 }

/-- R300, U5: arbitrary latches. -/
def freeLatches (draw : Nat) : Latches :=
  { param := Config.freeBits draw 200 32, key := freeVector draw 210 32 8, salt := freeVector draw 220 32 2,
    pers := freeVector draw 230 32 2, data := Config.freeBits draw 201 32, cnt := Config.freeBits draw 202 3 }

/-- U5: an arbitrary command. -/
def freeCaller (draw : Nat) : Caller :=
  if (Config.freeBits draw 300 1) = 1 then .init
  else if (Config.freeBits draw 301 1) = 1 then .absorb
  else .digest

/-- R300, U5: the controller in IDLE with its other registers arbitrary. -/
def freeController (draw : Nat) : Controller :=
  { ctl := .idle, r := Fin.ofNat 10 (Config.freeBits draw 302 4).toNat, j := Fin.ofNat 8 (Config.freeBits draw 303 3).toNat,
    k := Config.freeBits draw 304 7, caller := freeCaller draw,
    ret := if (Config.freeBits draw 305 1) = 1 then .byteTail else .dOut }

/-- R300: the reset edge. STATUS, the operand registers and `ctl` take their reset values and a running command is
aborted; everything R302 leaves unspecified takes free values of one draw. An access in this cycle completes with
a write ignored and a read returning 0. -/
def resetEdge (c : Cycle) (s : State) : State :=
  { ctx := freeContext s.draws
    ctrl := freeController s.draws
    dp := freeDatapath s.draws
    latches := freeLatches s.draws
    regs := OperandRegs.reset
    status := Status.reset
    dreg := freeVector s.draws 400 32 8
    out := { ready := c.sel, rdata := bif c.sel && !c.we then some 0 else none }
    inputs := s.inputs
    draws := s.draws + 1 }

/-- One clock cycle: reset, or the access of the cycle and then, if BUSY was 1 when the cycle began, the controller
steps of the cycle. So BUSY is 1 for at least one cycle (R254), and an access sees the state at the start of its
cycle (log entry 4). -/
def cycle (c : Cycle) (s : State) : Host.Outcome State Fault Refusal :=
  bif c.rst then .next (resetEdge c s)
  else onNext (serve c s) fun t => bif s.busy then engineRun c.engineSteps t else t

end Sys2Proof.Machine
end

