-- ==== Sys2Proof/Machine/Step.lean ====
section
/-! DEFINITION. The step function: one clock cycle of the machine (00_scope.md R10, 20_memory.md R60, R70). The next
entry of `inputs` gives the pins of the cycle; with none left, the host is quiet and the engine takes one controller
step (weak fairness, log entry 4). -/

namespace Sys2Proof.Machine

/-- One clock cycle. -/
def step (s : State) : Host.Outcome State Fault Refusal :=
  match s.inputs with
  | [] => cycle Cycle.quiet s
  | c :: rest => cycle c (s.withInputs rest)

/-- The state in which the next cycle writes the command word to CMD: the word of `nbits` bits, the bits above
`nbits` zero. A command is fetched from nowhere (R35, R90): it is a bus write, which stands next in `inputs` (log
entry 3). -/
def State.withFetchWord (s : State) (nbits w : Nat) : State :=
  s.withInputs (Cycle.write 0x00 (BitVec.ofNat 32 (w % 2 ^ nbits)) :: s.inputs)

end Sys2Proof.Machine
end

