-- ==== Sys2Proof/Machine/Driver.lean ====
section
/-! DEFINITION. The other agent: a host that runs a list of the statements of 30_encoding.md R98 against the engine, one
bus cycle a step, and the pseudo-instructions of R99 as their expansions. -/

namespace Sys2Proof.Machine

/-- R98: the host statements. -/
inductive HostStmt where
  | wr (off : BitVec 8) (v : Word)
  | rd (off : BitVec 8)
  | nop
  | init
  | absorb (n : BitVec 3)
  | digest
  | wait
  deriving DecidableEq, Repr

/-- R98: the bus cycle of a statement; WAIT's is one poll of STATUS. -/
def HostStmt.cycle : HostStmt → Cycle
  | .wr off v => Cycle.write off v
  | .rd off => Cycle.read off
  | .nop => Cycle.write 0x00 0x00000000
  | .init => Cycle.write 0x00 0x00000001
  | .absorb n => Cycle.write 0x00 (0x00000002 ||| n.setWidth 32 <<< 4)
  | .digest => Cycle.write 0x00 0x00000003
  | .wait => Cycle.read 0x04

/-- A host with its engine: the statements still to run, and the results of the RD statements, oldest first. -/
structure Session where
  engine : State
  prog : List HostStmt
  results : List Word
  deriving DecidableEq, Repr

/-- R98: what a statement leaves to run after its cycle: WAIT repeats until BUSY reads 0. -/
def HostStmt.remaining (st : HostStmt) (rest : List HostStmt) (rdata : Option Word) : List HostStmt :=
  match st with
  | .wait => bif (rdata.getD 0).getLsbD 0 then .wait :: rest else rest
  | .wr _ _ => rest
  | .rd _ => rest
  | .nop => rest
  | .init => rest
  | .absorb _ => rest
  | .digest => rest

/-- R98: the result RD adds. -/
def HostStmt.result (st : HostStmt) (rdata : Option Word) : List Word :=
  match st with
  | .rd _ => [rdata.getD 0]
  | .wr _ _ => []
  | .nop => []
  | .init => []
  | .absorb _ => []
  | .digest => []
  | .wait => []

/-- One bus cycle of the host and its engine: the next statement's cycle, or a quiet one when the program is over. -/
def sessionStep (x : Session) : Host.Outcome Session Fault Refusal :=
  match x.prog with
  | [] =>
    match step (x.engine.withInputs []) with
    | .next t => .next { x with engine := t }
    | .fault r => .fault r
    | .refused r => .refused r
  | st :: rest =>
    match step (x.engine.withInputs [st.cycle]) with
    | .next t =>
      .next { engine := t, prog := st.remaining rest t.out.rdata, results := x.results ++ st.result t.out.rdata }
    | .fault r => .fault r
    | .refused r => .refused r

/-- `n` bus cycles of a session. -/
def sessionRun : Nat → Session → Host.Outcome Session Fault Refusal
  | 0, x => .next x
  | n + 1, x =>
    match sessionStep x with
    | .next y => sessionRun n y
    | .fault r => .fault r
    | .refused r => .refused r

/-! The pseudo-instructions of R99. Byte strings are lists; bytes past their end are 0. -/

/-- R99: `LE32(b[4i..4i+3])`, bytes past the length 0. -/
def packBytes (b : List Byte) (i : Nat) : Word :=
  le32 (b.getD (4 * i) 0) (b.getD (4 * i + 1) 0) (b.getD (4 * i + 2) 0) (b.getD (4 * i + 3) 0)

/-- R99 `SETPARAM ds, kl, sl, pl`. -/
def setParam (ds kl sl pl : Byte) : List HostStmt := [.wr 0x08 (le32 ds kl sl pl)]

/-- R99 `SETKEY key`. -/
def setKey (key : List Byte) : List HostStmt :=
  (List.range 8).map fun i => .wr (BitVec.ofNat 8 (0x20 + 4 * i)) (packBytes key i)

/-- R99 `SETSALT s`. -/
def setSalt (s : List Byte) : List HostStmt := [.wr 0x10 (packBytes s 0), .wr 0x14 (packBytes s 1)]

/-- R99 `SETPERS p`. -/
def setPers (p : List Byte) : List HostStmt := [.wr 0x18 (packBytes p 0), .wr 0x1C (packBytes p 1)]

/-- R99 `ABSORB_BYTES msg`: chunks of 4 bytes, the last of 1 to 4. -/
def absorbStmts : List Byte → List HostStmt
  | [] => []
  | [a] => [.wr 0x0C (le32 a 0 0 0), .absorb 1, .wait]
  | [a, b] => [.wr 0x0C (le32 a b 0 0), .absorb 2, .wait]
  | [a, b, c] => [.wr 0x0C (le32 a b c 0), .absorb 3, .wait]
  | a :: b :: c :: d :: rest => .wr 0x0C (le32 a b c d) :: .absorb 4 :: .wait :: absorbStmts rest

/-- R99 `CREATE msg, key, salt, pers, ds`. -/
def create (msg key salt pers : List Byte) (ds : Byte) : List HostStmt :=
  setParam ds (BitVec.ofNat 8 key.length) (BitVec.ofNat 8 salt.length) (BitVec.ofNat 8 pers.length) ++
    setKey key ++ setSalt salt ++ setPers pers ++ [.init, .wait] ++ absorbStmts msg

/-- R99 `GETDIGEST`. -/
def getDigest : List HostStmt :=
  [.digest, .wait] ++ (List.range 8).map fun i => .rd (BitVec.ofNat 8 (0x40 + 4 * i))

/-- R99 `CLRERR`. -/
def clrErr : List HostStmt := [.wr 0x04 0x00000008]

/-- The operands an INIT of `CREATE` latches (R99, R253). -/
def createLatches (key salt pers : List Byte) (ds : Byte) : Latches :=
  { param := le32 ds (BitVec.ofNat 8 key.length) (BitVec.ofNat 8 salt.length) (BitVec.ofNat 8 pers.length)
    key := Vector.ofFn fun i => packBytes key i.val
    salt := Vector.ofFn fun i => packBytes salt i.val
    pers := Vector.ofFn fun i => packBytes pers i.val
    data := 0
    cnt := 0 }

end Sys2Proof.Machine
end

