-- ==== Sys2Proof/Machine/Platform.lean ====
section
/-! DEFINITION. The platform's address decoding in front of the pins (20_memory.md R64, R69; 46_command_control.md R260):
which host accesses select the engine, and at which offset. -/

namespace Sys2Proof.Machine

/-- A host access at a byte address of the host's address space. -/
structure HostAccess where
  addr : Nat
  we : Bool
  be : BitVec 4
  wdata : Word
  deriving DecidableEq, Repr

/-- R64: the offset of an address in the window at `BASE`, if it lies in the window. -/
def windowOffset (a : Nat) : Option (BitVec 8) :=
  if Config.base ≤ a ∧ a < Config.base + 0x100 then some (BitVec.ofNat 8 (a - Config.base)) else none

/-- R60, R64: the pins of a cycle in which the host makes the access; one outside the window does not select the
engine. -/
def HostAccess.cycle (a : HostAccess) (engineSteps : Nat) : Cycle :=
  match windowOffset a.addr with
  | some off =>
    { rst := false, sel := true, we := a.we, addr := off, be := a.be, wdata := a.wdata, engineSteps := engineSteps }
  | none => { Cycle.quiet with engineSteps := engineSteps }

end Sys2Proof.Machine
end

