-- ==== Sys2Proof/Machine/CommandLevel.lean ====
section
/-! DEFINITION. The command-level view of 46_command_control.md R258: a command's whole effect as one transition, and
the number of controller steps it takes (R255). The machine's step does not use it: the claims relate it to the
controller, which runs the commands one step at a time. -/

namespace Sys2Proof.Machine

/-- R211 to R213: the context a valid INIT leaves. -/
def initContext (l : Latches) (c : Context) : Context :=
  let c := seedContext l c
  bif hasKey l then absorbBytes (keyBlock l.param l.key).toList c else c

/-- R258, case 0x1, after the checks. -/
def commandInit (s : State) : State :=
  let s := setCtxValid false (clearDvalid (latchInit s))
  bif paramOK s.latches.param then setCtxValid true (s.withCtx (initContext s.latches s.ctx))
  else raiseError .param (pcauseOf s.latches.param) s

/-- R258, case 0x2, after the checks. -/
def commandAbsorb (cnt : BitVec 3) (s : State) : State :=
  let s := clearDvalid (latchAbsorb cnt s)
  s.withCtx (absorbBytes (dataBytes s.latches.data cnt) s.ctx)

/-- R258, case 0x3, after the checks. -/
def commandDigest (s : State) : State :=
  let s := s.withDreg (extractDigest (finalState s.ctx) s.ctx.ds)
  s.withStatus { s.status with dvalid := true }

/-- R258 `Exec`, on the instruction a word decodes to. -/
def commandLevel (i : Instr) (s : State) : State :=
  match i with
  | .nop => accepting true false s fun s => s
  | .init => accepting true false s commandInit
  | .absorb cnt => accepting (decide (cnt.toNat ≤ 4)) true s (commandAbsorb cnt)
  | .digest => accepting true true s commandDigest

/-- R194: how many compressions absorbing `n` bytes runs from a fill count of `i0`. -/
def compressionCount (i0 n : Nat) : Nat := if n = 0 then 0 else (i0 + n - 1) / 64

/-- R255, R313: the number of controller steps of an accepted command; 0 for a command that never sets BUSY. -/
def commandSteps (i : Instr) (s : State) : Nat :=
  match i with
  | .nop => 0
  | .init => bif paramOK s.regs.param then (if klField s.regs.param = 0 then 1 else 1 + 64) else 0
  | .absorb cnt => max 1 cnt.toNat + 82 * compressionCount s.ctx.bufIdx.toNat cnt.toNat
  | .digest => 1 + 82 + 1

/-- A command written to an engine at rest and run to completion by the controller, with no host access in between:
`exec` and then the command's number of engine steps. -/
def runCommand (i : Instr) (s : State) : State :=
  match exec i s with
  | .next t => engineRun (commandSteps i s) t
  | .fault _ => s
  | .refused _ => s

/-- `WR DATA, w`, `ABSORB n`, `WAIT` (R99) on an engine at rest. -/
def runAbsorb (s : State) (chunk : Word × BitVec 3) : State :=
  runCommand (.absorb chunk.2) (s.withRegs { s.regs with data := chunk.1 })

/-- The bytes a sequence of such commands absorbs (R93, R197). -/
def chunkBytes (chunks : List (Word × BitVec 3)) : List Byte := chunks.flatMap fun c => dataBytes c.1 c.2

/-- Block `i` of a byte sequence, bytes past its end 0 (R191, R232). -/
def blockAt (bs : List Byte) (i : Nat) : Block := Vector.ofFn fun j => bs.getD (64 * i + j.val) 0

end Sys2Proof.Machine
end

