-- ==== Sys2Proof/Safety.lean ====
section
/-! DEFINITION. The terms claims use: the machine's invariant (10_state.md R25, R26, R42 and the controller's states,
R170), the parts of the state a host can learn of, and what "the engine part of the state" is. -/

namespace Sys2Proof.Machine

/-- R95: the legality test of a command word, as the rule states it. -/
abbrev LegalWord (w : Word) : Prop :=
  w.extractLsb' 7 25 = 0 ∧ w.extractLsb' 0 4 ∈ [0x0, 0x1, 0x2, 0x3] ∧
    ((w.extractLsb' 0 4 = 0x2 ∧ (w.extractLsb' 4 3).toNat ≤ 4) ∨ (w.extractLsb' 0 4 ≠ 0x2 ∧ w.extractLsb' 4 3 = 0))

/-- R251: the words whose command needs a context, ABSORB and DIGEST. -/
abbrev NeedsContext (w : Word) : Prop := w.extractLsb' 0 4 ∈ [0x2, 0x3]

/-- R42, R271, R272: the error fields. ERRCODE is nonzero exactly when ERR is set, and PCAUSE is nonzero exactly for
PARAM. -/
abbrev Status.ErrorFieldsOk (st : Status) : Prop :=
  (st.err = false ↔ st.errCode = .none) ∧ (st.pcause ≠ 0 ↔ st.errCode = .param)

/-- R26: the ranges of a context. -/
abbrev Context.RangesOk (c : Context) : Prop :=
  1 ≤ c.ds.toNat ∧ c.ds.toNat ≤ 32 ∧ c.bufIdx.toNat ≤ 64

/-- R193, R195: the byte loop of ABSORB is at a byte of the command, or at the start of an empty sequence. -/
abbrev State.AbsorbLoopOk (s : State) : Prop :=
  s.ctrl.caller = .absorb ∧ s.status.ctxValid = true ∧ s.latches.cnt.toNat ≤ 4 ∧
    (s.ctrl.k.toNat = 0 ∨ s.ctrl.k.toNat < s.latches.cnt.toNat)

/-- R211, R212: the byte loop of INIT is inside the key block and fills the empty buffer with it, byte `k` at position
`k`. -/
abbrev State.InitLoopOk (s : State) : Prop :=
  s.ctrl.caller = .init ∧ s.status.ctxValid = false ∧ paramOK s.latches.param = true ∧ hasKey s.latches = true ∧
    s.ctx.t = 0 ∧ s.ctrl.k.toNat < 64 ∧ s.ctx.bufIdx.toNat = s.ctrl.k.toNat ∧ 1 ≤ s.ctx.ds.toNat ∧ s.ctx.ds.toNat ≤ 32

/-- R170, R213: a compression runs for ABSORB on a full buffer, as a non-final one, or for DIGEST, as the final one;
never for INIT. -/
abbrev State.CompressionOk (s : State) : Prop :=
  s.status.ctxValid = true ∧
    ((s.ctrl.caller = .absorb ∧ s.ctrl.ret = .byteTail ∧ s.dp.fin = false ∧ s.ctx.bufIdx = 64 ∧
        s.latches.cnt.toNat ≤ 4 ∧ s.ctrl.k.toNat < s.latches.cnt.toNat) ∨
      (s.ctrl.caller = .digest ∧ s.ctrl.ret = .dOut ∧ s.dp.fin = true))

/-- R170: the controller is in a compression. -/
abbrev State.compressing (s : State) : Prop := s.ctrl.ctl = .cLoad ∨ s.ctrl.ctl = .cG ∨ s.ctrl.ctl = .cOut

/-- The machine's invariant. -/
structure State.Inv (s : State) : Prop where
  /-- R42, R271: the error fields agree with each other. -/
  errorFields : s.status.ErrorFieldsOk
  /-- R25, R26: a valid context has its ranges, also while a command runs. -/
  ranges : s.status.ctxValid = true → s.ctx.RangesOk
  /-- R26: the counter of a valid context counts whole compressed blocks only. -/
  counter : s.status.ctxValid = true → s.ctx.t.toNat % 64 = 0
  /-- R42, R230: a valid digest has its context, and no command runs. -/
  digest : s.status.dvalid = true → s.status.ctxValid = true ∧ s.busy = false
  /-- R210: INIT seeds with valid parameters and no context. -/
  seed : s.ctrl.ctl = .iSeed → s.ctrl.caller = .init ∧ s.status.ctxValid = false ∧ paramOK s.latches.param = true
  byteLoop : s.ctrl.ctl = .byte → s.AbsorbLoopOk ∨ s.InitLoopOk
  /-- R230: DIGEST runs on a valid context. -/
  snapshot : s.ctrl.ctl = .dSnap → s.status.ctxValid = true
  compression : s.compressing → s.CompressionOk
  /-- R231, R234: the extraction follows DIGEST's own compression. -/
  extraction : s.ctrl.ctl = .dOut → s.status.ctxValid = true ∧ s.ctrl.caller = .digest

/-- R52, R254: everything but the scratch registers of a command (`v`, `m`, `fin`, `hs`, `ts`, `r`, `j`, `k`, `caller`,
`ret`), which no rule reads after the command ends (R169, R30, R32). -/
abbrev State.SameArchitecture (s t : State) : Prop :=
  s.ctx = t.ctx ∧ s.ctrl.ctl = t.ctrl.ctl ∧ s.latches = t.latches ∧ s.regs = t.regs ∧ s.status = t.status ∧
    s.dreg = t.dreg ∧ s.out = t.out ∧ s.inputs = t.inputs ∧ s.draws = t.draws

/-- The state with its error fields as in `st`: what an error may change (R278). -/
def State.withErrorOf (s : State) (st : Status) : State :=
  s.withStatus { s.status with err := st.err, errCode := st.errCode, pcause := st.pcause }

/-- What two states must share for every host read to return the same (R40 to R50, R52, R286): the readable operand
registers, STATUS and what it depends on, the readable digest, and the counter and fill count of a valid context at
rest. The key, the chaining state, the buffer, the latches and the datapath are not in it. -/
abbrev State.SameReadable (s t : State) : Prop :=
  s.regs.param = t.regs.param ∧ s.regs.data = t.regs.data ∧ s.regs.salt = t.regs.salt ∧ s.regs.pers = t.regs.pers ∧
    s.status = t.status ∧ s.busy = t.busy ∧ (s.status.dvalid = true → s.dreg = t.dreg) ∧
    (s.status.ctxValid = true → s.busy = false → s.ctx.t = t.ctx.t ∧ s.ctx.bufIdx = t.ctx.bufIdx) ∧
    s.draws = t.draws

/-- The part of the state a running command works on (R172): everything but the operand registers, the error fields, the
pins and the model's own fields. -/
abbrev State.SameEngine (s t : State) : Prop :=
  s.ctx = t.ctx ∧ s.ctrl = t.ctrl ∧ s.dp = t.dp ∧ s.latches = t.latches ∧ s.dreg = t.dreg ∧
    s.status.ctxValid = t.status.ctxValid ∧ s.status.dvalid = t.status.dvalid

/-- R22, R40: the meaningful part of two contexts is the same: all but the bytes of `buf` from `bufIdx` on. -/
abbrev Context.SameMeaning (c d : Context) : Prop :=
  c.h = d.h ∧ c.t = d.t ∧ c.bufIdx = d.bufIdx ∧ c.ds = d.ds ∧ ∀ j : Fin 64, j.val < c.bufIdx.toNat → c.buf[j] = d.buf[j]

/-- R60: `BusRead(off)` in the state returns `w`. -/
abbrev State.Reads (s : State) (off : BitVec 8) (w : Word) : Prop :=
  ∃ t, serve (Cycle.read off) s = .next t ∧ t.out = { ready := true, rdata := some w }

/-- A safe run: whatever the bus does, no step stops (R270, R255). -/
def SafeStep (s : State) : Prop := ∃ t, step s = .next t

end Sys2Proof.Machine
end

