-- ==== Sys2Proof/Certificates/Slice0/Obligations.lean ====
section
/-! DEFINITION. The statements for the provers, from the numbered rules of spec/. `engineRun n t` is `n` controller steps
with no host access in between; `serve c s` is the access of one bus cycle; `cycle` and `step` are one clock cycle. -/

open Sys2Proof Sys2Proof.Machine

/-! ## Encoding and decoding -/

/-- R91, R92, R100: words written out from the format decode to the commands they stand for. -/
def Obligations.WrittenOutWordsDecode : Prop :=
  decode 0b00000000000000000000000000000000#32 = .instr .nop ∧
  decode 0b00000000000000000000000000000001#32 = .instr .init ∧
  decode 0b00000000000000000000000000000010#32 = .instr (.absorb 0) ∧
  decode 0b00000000000000000000000000110010#32 = .instr (.absorb 3) ∧
  decode 0b00000000000000000000000001000010#32 = .instr (.absorb 4) ∧
  decode 0b00000000000000000000000000000011#32 = .instr .digest ∧
  decode 0b00000000000000000000000001010010#32 = .rejected .countTooLarge ∧
  decode 0b00000000000000000000000000010011#32 = .rejected .countNotZero ∧
  decode 0b00000000000000000000000000000100#32 = .rejected .reservedOp ∧
  decode 0b10000000000000000000000000000001#32 = .rejected .reservedBits

/-- R96: the eight legal command words and what they mean; every other word is rejected. -/
def Obligations.ExactlyEightLegalWords : Prop :=
  ∀ (w : Word) (i : Instr), decode w = .instr i ↔
    (w, i) ∈ [((0x00000000 : Word), Instr.nop), (0x00000001, .init), (0x00000002, .absorb 0), (0x00000012, .absorb 1),
      (0x00000022, .absorb 2), (0x00000032, .absorb 3), (0x00000042, .absorb 4), (0x00000003, .digest)]

/-- R95, R274: the decoder accepts exactly the words of the legality test, and a CMD write of any other word with
BUSY = 0 raises ILLEGAL_CMD and changes nothing else. -/
def Obligations.IllegalWordsAreRefused : Prop :=
  (∀ w : Word, (∃ i, decode w = .instr i) ↔ LegalWord w) ∧
  ∀ (s : State) (w : Word), s.busy = false → ¬ LegalWord w →
    serve (Cycle.write 0x00 w) s = .next (raiseError .illegalCmd 0 (s.withOut { ready := true, rdata := none }))

/-- Decoding and encoding are inverse to each other: no bit of an operand is dropped, and no word has two readings. -/
def Obligations.DecodeAndEncodeAreInverse : Prop :=
  (∀ i : Instr, i.wellFormed = true → decode (encode i) = .instr i) ∧
  ∀ (w : Word) (i : Instr), decode w = .instr i → i.wellFormed = true ∧ encode i = w

/-! ## The step, the bus and reset -/

/-- A CMD write whose word decodes runs `exec` of the instruction, and then, if BUSY was 1 when the cycle began, the
controller steps of the cycle (R250, R251). `withFetchWord` puts such a write next. -/
def Obligations.StepRunsDecodedCommand : Prop :=
  (∀ (s : State) (c : Cycle) (rest : List Cycle) (i : Instr),
    s.inputs = c :: rest → c.rst = false → c.sel = true → c.we = true → c.addr = 0x00 → c.be = 0xF →
    decode c.wdata = .instr i →
    step s = onNext (exec i ((s.withInputs rest).withOut { ready := true, rdata := none }))
      (fun t => bif s.busy then engineRun c.engineSteps t else t)) ∧
  ∀ (s : State) (nbits w : Nat) (i : Instr), s.busy = false → decodeTableWord nbits w = some i →
    step (s.withFetchWord nbits w) = exec i (s.withOut { ready := true, rdata := none })

/-- Whatever the bus does, in every state, a step answers a next state (R255, R270). -/
def Obligations.EveryStepIsSafe : Prop := ∀ s : State, SafeStep s

/-- R300: the reset edge aborts a running command (no engine step follows), sets `ctl` to IDLE and every STATUS field and
operand register to 0; an access in that cycle completes with a write ignored and a read returning 0. -/
def Obligations.ResetEdge : Prop :=
  ∀ (s : State) (c : Cycle) (rest : List Cycle), s.inputs = c :: rest → c.rst = true →
    ∃ t, step s = .next t ∧ t.ctrl.ctl = .idle ∧ (∀ n, engineRun n t = t) ∧ t.statusWord = 0 ∧
      t.status.ctxValid = false ∧ t.status.dvalid = false ∧ t.status.err = false ∧ t.status.errCode = .none ∧
      t.status.pcause = 0 ∧ t.regs.param = 0 ∧ t.regs.data = 0 ∧ (∀ i : Fin 2, t.regs.salt[i] = 0 ∧ t.regs.pers[i] = 0) ∧
      (∀ i : Fin 8, t.regs.key[i] = 0) ∧ t.inputs = rest ∧ (c.sel = true → t.out.ready = true) ∧
      (c.sel = true → c.we = false → t.out.rdata = some 0)

/-- R302: right after reset every register reads 0, BUSY, CTX_VALID, DVALID and ERR are 0, and the key registers hold 0. -/
def Obligations.EveryRegisterReadsZeroAfterReset : Prop :=
  (∀ off : BitVec 8, State.reset.Reads off 0) ∧
  State.reset.busy = false ∧ State.reset.ctrl.ctl = .idle ∧ State.reset.status = Status.reset ∧
  ∀ i : Fin 8, State.reset.regs.key[i] = 0

/-- R43 to R46 (access type RW of R40): a write to PARAM, DATA, SALT0..1 or PERS0..1 is stored whatever the value and
whether or not BUSY is 1, reads back unchanged, and leaves every other readable register as it reads. -/
def Obligations.OperandRegistersReadBack : Prop :=
  ∀ (s : State) (off : BitVec 8) (w : Word), off ∈ [0x08, 0x0C, 0x10, 0x14, 0x18, 0x1C] →
    ∃ t, serve (Cycle.write off w) s = .next t ∧ t.Reads off w ∧
      (∀ (off' : BitVec 8) (w' : Word), off' ≠ off → s.Reads off' w' → t.Reads off' w') ∧
      t.regs.key = s.regs.key ∧ t = (s.withRegs t.regs).withOut { ready := true, rdata := none }

/-- R47: KEYi is stored but reads 0; INIT uses key bytes 0..KL−1 and treats the rest of the key block as 0. -/
def Obligations.KeyRegistersAreWriteOnly : Prop :=
  (∀ (s : State) (i : Fin 8) (w : Word),
    ∃ t, serve (Cycle.write (BitVec.ofNat 8 (0x20 + 4 * i.val)) w) s = .next t ∧
      t = (s.withRegs { s.regs with key := s.regs.key.set i w }).withOut { ready := true, rdata := none }) ∧
  (∀ (s : State) (i : Fin 8), s.Reads (BitVec.ofNat 8 (0x20 + 4 * i.val)) 0) ∧
  (∀ (param : Word) (key : Vector Word 8) (i : Fin 64),
    (keyBlock param key)[i] =
      if h : i.val < (klField param).toNat ∧ i.val < 32 then byteOf (key[i.val / 4]'(by omega)) (i.val % 4) else 0) ∧
  ∀ i : Fin 8, OperandRegs.reset.key[i] = 0

/-- R48: DIGESTi reads `dreg[i]` when DVALID = 1 and 0 otherwise, and ignores a write. -/
def Obligations.DigestRegistersAreMasked : Prop :=
  ∀ (s : State) (i : Fin 8),
    s.Reads (BitVec.ofNat 8 (0x40 + 4 * i.val)) (if s.status.dvalid then s.dreg[i] else 0) ∧
    ∀ w : Word, serve (Cycle.write (BitVec.ofNat 8 (0x40 + 4 * i.val)) w) s =
      .next (s.withOut { ready := true, rdata := none })

/-- R49, R311: with BUSY = 0 two reads in a row give the two words of the counter, and they read 0 without a context. -/
def Obligations.CounterReadsAreConsistent : Prop :=
  ∀ (s : State) (rest : List Cycle), s.inputs = Cycle.read 0x60 :: Cycle.read 0x64 :: rest → s.busy = false →
    ∃ t u, step s = .next t ∧ step t = .next u ∧ u.ctx = s.ctx ∧
      (s.status.ctxValid = true → ∃ lo hi : Word, t.out.rdata = some lo ∧ u.out.rdata = some hi ∧ hi ++ lo = s.ctx.t) ∧
      (s.status.ctxValid = false → t.out.rdata = some 0 ∧ u.out.rdata = some 0)

/-- R42: what a read of STATUS returns, field by field, in a state of the invariant (BUFIDX while BUSY = 1 and
CTX_VALID = 1 is any value), and the values the engine sets. -/
def Obligations.StatusReadsItsFields : Prop :=
  ∀ s : State, s.Inv → ∃ w : Word, s.Reads 0x04 w ∧
    w.getLsbD 0 = s.busy ∧ w.getLsbD 1 = s.status.ctxValid ∧ w.getLsbD 2 = s.status.dvalid ∧ w.getLsbD 3 = s.status.err ∧
    w.extractLsb' 4 4 = 0 ∧ w.extractLsb' 8 4 = s.status.errCode.bits ∧ w.extractLsb' 12 4 = s.status.pcause ∧
    w.extractLsb' 23 9 = 0 ∧
    (s.status.ctxValid = false → w.extractLsb' 16 7 = 0) ∧
    (s.status.ctxValid = true → s.busy = false → w.extractLsb' 16 7 = s.ctx.bufIdx ∧ (w.extractLsb' 16 7).toNat ≤ 64) ∧
    (w.extractLsb' 8 4).toNat ≤ 4 ∧ (w.extractLsb' 8 4 ≠ 1 → w.extractLsb' 12 4 = 0)

/-- R42, R279: a write to STATUS with bit 3 set clears ERR, ERRCODE and PCAUSE and nothing else, at any time; with bit 3
clear it does nothing. -/
def Obligations.StatusWriteClearsTheError : Prop :=
  ∀ (s : State) (w : Word),
    (w.getLsbD 3 = true → serve (Cycle.write 0x04 w) s =
      .next ((s.withStatus { s.status with err := false, errCode := .none, pcause := 0 }).withOut
        { ready := true, rdata := none })) ∧
    (w.getLsbD 3 = false → serve (Cycle.write 0x04 w) s = .next (s.withOut { ready := true, rdata := none }))

/-- R50: a reserved offset reads 0 and ignores a write, with no side effect, and the reserved fields of STATUS read 0. -/
def Obligations.ReservedOffsetsDoNothing : Prop :=
  (∀ (s : State) (off : BitVec 8), 0x68 ≤ off.toNat → off.toNat % 4 = 0 →
    serve (Cycle.read off) s = .next (s.withOut { ready := true, rdata := some 0 }) ∧
    ∀ w : Word, serve (Cycle.write off w) s = .next (s.withOut { ready := true, rdata := none })) ∧
  ∀ s : State, ∃ w : Word, s.Reads 0x04 w ∧ w.extractLsb' 4 4 = 0 ∧ w.extractLsb' 23 9 = 0

/-- R65: a misaligned or partial access completes with no side effect; a read of that form returns 0. -/
def Obligations.UnsupportedAccessesDoNothing : Prop :=
  ∀ (s : State) (c : Cycle), c.sel = true → (c.addr.toNat % 4 ≠ 0 ∨ c.be ≠ 0xF) →
    serve c s = .next (s.withOut { ready := true, rdata := if c.we then none else some 0 })

/-- R66: reads have no side effect (but for the model's count of free values, log entry 2) and repeat, at every offset and
also while BUSY = 1; the exceptions are COUNT_LO, COUNT_HI and the BUFIDX field of STATUS while BUSY = 1 and CTX_VALID = 1.
A write other than one to CMD changes only the operand registers, or, on STATUS with bit 3 set, only the error fields. -/
def Obligations.OnlyTwoWritesHaveSideEffects : Prop :=
  (∀ (s : State) (c : Cycle), c.sel = true → c.we = false →
    ∃ t, serve c s = .next t ∧ t = (s.withDraws t.draws).withOut t.out ∧
      (s.busy = false ∨ s.status.ctxValid = false ∨ c.addr ∉ [0x04, 0x60, 0x64] ∨ c.be ≠ 0xF →
        t.draws = s.draws ∧ serve c t = .next t)) ∧
  (∀ (s t : State) (w w' : Word), serve (Cycle.read 0x04) s = .next t → s.Reads 0x04 w → t.Reads 0x04 w' →
    w'.extractLsb' 0 16 = w.extractLsb' 0 16 ∧ w'.extractLsb' 23 9 = w.extractLsb' 23 9) ∧
  ∀ (s : State) (c : Cycle), c.sel = true → c.we = true → c.addr ≠ 0x00 →
    ∃ t, serve c s = .next t ∧
      ((c.addr ≠ 0x04 ∨ c.wdata.getLsbD 3 = false) → t = (s.withRegs t.regs).withOut t.out) ∧
      (c.addr = 0x04 → t = (s.withErrorOf t.status).withOut t.out)

/-- R64, R260: a host access at `BASE + off`, of whatever form and in a cycle of any number of controller steps, is the
engine's access at `off`; one outside the 256-byte window does not select the engine; `BASE` is a multiple of 0x100. -/
def Obligations.WindowSelectsTheEngine : Prop :=
  Config.base % 0x100 = 0 ∧
  (∀ (off : BitVec 8) (we : Bool) (be : BitVec 4) (wdata : Word) (n : Nat),
    ({ addr := Config.base + off.toNat, we := we, be := be, wdata := wdata } : HostAccess).cycle n =
      { rst := false, sel := true, we := we, addr := off, be := be, wdata := wdata, engineSteps := n }) ∧
  (∀ (off : BitVec 8) (v : Word),
    ({ addr := Config.base + off.toNat, we := true, be := 0xF, wdata := v } : HostAccess).cycle 1 = Cycle.write off v ∧
    ({ addr := Config.base + off.toNat, we := false, be := 0xF, wdata := 0 } : HostAccess).cycle 1 = Cycle.read off) ∧
  ∀ (a : HostAccess) (n : Nat), a.addr < Config.base ∨ Config.base + 0x100 ≤ a.addr → (a.cycle n).sel = false

/-- R287, R49, R311: at rest, a cycle without reset that does not write CMD leaves the context, the digest, CTX_VALID,
DVALID and IDLE as they are. -/
def Obligations.RestKeepsTheContext : Prop :=
  ∀ (s t : State) (c : Cycle), s.busy = false → c.rst = false → (c.sel = false ∨ c.we = false ∨ c.addr ≠ 0x00) →
    cycle c s = .next t → s.SameEngine t

/-! ## Errors -/

/-- R276: a CMD write while BUSY = 1 raises BUSY_CMD whatever the word, and the running command is not affected. -/
def Obligations.BusyCommandsAreRefused : Prop :=
  ∀ (s : State) (w : Word), s.busy = true →
    ∃ t, serve (Cycle.write 0x00 w) s = .next t ∧
      t = raiseError .busyCmd 0 (s.withOut { ready := true, rdata := none }) ∧
      ∀ n, (engineRun n s).SameEngine (engineRun n t)

/-- R275: a legal ABSORB or DIGEST with BUSY = 0 and no context raises NO_CONTEXT and changes nothing else. -/
def Obligations.CommandsNeedAContext : Prop :=
  ∀ (s : State) (w : Word), s.busy = false → s.status.ctxValid = false → LegalWord w → NeedsContext w →
    serve (Cycle.write 0x00 w) s = .next (raiseError .noContext 0 (s.withOut { ready := true, rdata := none }))

/-- R277: one CMD write reports exactly one code, in the order BUSY_CMD, ILLEGAL_CMD, NO_CONTEXT, PARAM, with every
violated constraint in PCAUSE, and an error recorded before stays. -/
def Obligations.OneErrorInPriorityOrder : Prop :=
  ∀ (s : State) (w : Word), ∃ t, serve (Cycle.write 0x00 w) s = .next t ∧
    (s.status.err = true → t.status.err = true ∧ t.status.errCode = s.status.errCode ∧ t.status.pcause = s.status.pcause) ∧
    (s.status.err = false →
      (t.status.err, t.status.errCode, t.status.pcause) =
        if s.busy then (true, .busyCmd, 0)
        else if ¬ LegalWord w then (true, .illegalCmd, 0)
        else if NeedsContext w ∧ s.status.ctxValid = false then (true, .noContext, 0)
        else if w.extractLsb' 0 4 = 0x1 ∧ pcauseOf s.regs.param ≠ 0 then (true, .param, pcauseOf s.regs.param)
        else (false, s.status.errCode, s.status.pcause))

/-- R278: when a CMD write raises an error, the state after it is the state before it but for the error fields, and, for
PARAM only, CTX_VALID, DVALID and the operand latches (which R210 copies before the check; log entry 9). -/
def Obligations.ErrorsArePrecise : Prop :=
  ∀ (s t : State) (w : Word), serve (Cycle.write 0x00 w) s = .next t →
    (s.busy = true ∨ ¬ LegalWord w ∨ (NeedsContext w ∧ s.status.ctxValid = false) →
      t = (s.withErrorOf t.status).withOut t.out) ∧
    (s.busy = false → w = 0x00000001 → paramOK s.regs.param = false →
      t = ((((s.withStatus { s.status with ctxValid := false, dvalid := false }).withErrorOf t.status).withLatches
        t.latches).withOut t.out))

/-- R273: INIT with invalid parameters records PARAM with a bit for each violated constraint, clears CTX_VALID and DVALID,
leaves the context registers and keeps BUSY = 0. -/
def Obligations.BadParametersAreRefused : Prop :=
  ∀ s : State, s.busy = false →
    (32 < (dsField s.regs.param).toNat ∨ 32 < (klField s.regs.param).toNat ∨ 8 < (slField s.regs.param).toNat ∨
      8 < (plField s.regs.param).toNat) →
    ∃ t, exec .init s = .next t ∧ t.busy = false ∧ t.status.ctxValid = false ∧ t.status.dvalid = false ∧ t.ctx = s.ctx ∧
      t.status.err = true ∧
      (s.status.err = false → t.status.errCode = .param ∧
        t.status.pcause.getLsbD 0 = decide (8 < (slField s.regs.param).toNat) ∧
        t.status.pcause.getLsbD 1 = decide (8 < (plField s.regs.param).toNat) ∧
        t.status.pcause.getLsbD 2 = decide (32 < (klField s.regs.param).toNat) ∧
        t.status.pcause.getLsbD 3 = decide (32 < (dsField s.regs.param).toNat)) ∧
      (s.status.err = true → t.status.errCode = s.status.errCode ∧ t.status.pcause = s.status.pcause) ∧
      t.regs = s.regs ∧ t.dreg = s.dreg ∧ t.dp = s.dp ∧ t.ctrl = s.ctrl ∧ t.out = s.out ∧ t.inputs = s.inputs ∧
      t.draws = s.draws

/-! ## The commands -/

/-- R256: NOP decodes from 0x00000000, completes at once and changes nothing, context or not; while BUSY = 1 it is
BUSY_CMD. After reset it leaves STATUS = 0x00000000. -/
def Obligations.NopChangesNothing : Prop :=
  decode 0x00000000 = .instr .nop ∧
  (∀ s : State, s.busy = false → exec .nop s = .next s) ∧
  (∀ s : State, s.busy = true → exec .nop s = .next (raiseError .busyCmd 0 s)) ∧
  ∃ t, exec .nop State.reset = .next t ∧ t.statusWord = 0x00000000

/-- R210 to R213: INIT with valid parameters is accepted (BUSY = 1, CTX_VALID = DVALID = 0) and completes after 1 step, or
65 with a key, with no compression, leaving the seeded context, the key block pending and everything else as it was. -/
def Obligations.InitBuildsTheContext : Prop :=
  ∀ s : State, s.busy = false → (dsField s.regs.param).toNat ≤ 32 → (klField s.regs.param).toNat ≤ 32 →
    (slField s.regs.param).toNat ≤ 8 → (plField s.regs.param).toNat ≤ 8 →
    ∃ t u, exec .init s = .next t ∧ t.status = { s.status with ctxValid := false, dvalid := false } ∧
      u = engineRun (if klField s.regs.param = 0 then 1 else 65) t ∧
      (∀ m, m < (if klField s.regs.param = 0 then 1 else 65) →
        (engineRun m t).busy = true ∧ ¬ (engineRun m t).compressing) ∧
      u.busy = false ∧ u.status = { s.status with ctxValid := true, dvalid := false } ∧
      (∀ i : Fin 8, u.ctx.h[i] = iv[i] ^^^ (paramWords s.regs.param s.regs.salt s.regs.pers)[i.val]) ∧
      u.ctx.t = 0 ∧
      u.ctx.ds.toNat = (if dsField s.regs.param = 0 then 32 else (dsField s.regs.param).toNat) ∧
      (klField s.regs.param = 0 → u.ctx.bufIdx = 0 ∧ u.ctx.buf = s.ctx.buf) ∧
      (klField s.regs.param ≠ 0 → u.ctx.bufIdx = 64 ∧ u.ctx.buf = keyBlock s.regs.param s.regs.key) ∧
      u.latches = { s.latches with
        param := s.regs.param, key := s.regs.key, salt := s.regs.salt, pers := s.regs.pers } ∧
      u.dp = s.dp ∧ u.regs = s.regs ∧ u.dreg = s.dreg ∧ u.out = s.out ∧ u.inputs = s.inputs ∧ u.draws = s.draws

/-- R195: ABSORB is accepted (BUSY = 1, DVALID = 0) and completes after its bytes, lane 0 first, have each been absorbed
by `AbsorbByte`, leaving everything else as it was; with CNT > 4 it is ILLEGAL_CMD. -/
def Obligations.AbsorbAbsorbsItsBytes : Prop :=
  (∀ (s : State) (cnt : BitVec 3), s.busy = false → s.status.ctxValid = true → cnt.toNat ≤ 4 → s.ctx.bufIdx.toNat ≤ 64 →
    ∃ t u, exec (.absorb cnt) s = .next t ∧ t.status = { s.status with dvalid := false } ∧
      u = engineRun (commandSteps (.absorb cnt) s) t ∧
      (∀ m, m < commandSteps (.absorb cnt) s → (engineRun m t).busy = true) ∧ u.busy = false ∧
      u.ctx = ((List.range cnt.toNat).map (byteOf s.regs.data)).foldl absorbByte s.ctx ∧
      u.status = { s.status with dvalid := false } ∧ u.latches = { s.latches with data := s.regs.data, cnt := cnt } ∧
      u.dp.hs = s.dp.hs ∧ u.dp.ts = s.dp.ts ∧ u.regs = s.regs ∧ u.dreg = s.dreg ∧ u.out = s.out ∧
      u.inputs = s.inputs ∧ u.draws = s.draws) ∧
  ∀ (s : State) (cnt : BitVec 3), s.busy = false → 4 < cnt.toNat →
    exec (.absorb cnt) s = .next (raiseError .illegalCmd 0 s)

/-- R196: ABSORB with CNT = 0 is legal, clears DVALID at acceptance, is BUSY and changes nothing else a later command or a
host can see. That it is BUSY for exactly one step is log entry 7, not the rule. -/
def Obligations.AbsorbOfNothing : Prop :=
  ∀ s : State, s.busy = false → s.status.ctxValid = true →
    ∃ t, decode 0x00000002 = .instr (.absorb 0) ∧ exec (.absorb 0) s = .next t ∧ t.busy = true ∧
      t.status = { s.status with dvalid := false } ∧ (engineRun 1 t).busy = false ∧ (engineRun 1 t).ctx = s.ctx ∧
      (engineRun 1 t).status = { s.status with dvalid := false } ∧ (engineRun 1 t).regs = s.regs ∧
      (engineRun 1 t).dreg = s.dreg ∧ (engineRun 1 t).dp = s.dp

/-- R230 to R234: DIGEST is accepted (BUSY = 1, DVALID = 0) and completes after 84 steps with the digest of the padded
snapshot in `dreg`, DVALID = 1, and everything else as it was. -/
def Obligations.DigestExtractsTheDigest : Prop :=
  ∀ s : State, s.busy = false → s.status.ctxValid = true →
    ∃ t u, exec .digest s = .next t ∧ t.status = { s.status with dvalid := false } ∧ u = engineRun 84 t ∧
      (∀ m, m < 84 → (engineRun m t).busy = true) ∧ u.busy = false ∧
      u.dreg = extractDigest (compress s.ctx.h
        (Vector.ofFn fun i => if i.val < s.ctx.bufIdx.toNat then s.ctx.buf[i] else 0)
        (s.ctx.t + s.ctx.bufIdx.setWidth 64) true) s.ctx.ds ∧
      u.status = { s.status with dvalid := true } ∧ u.ctx = s.ctx ∧ u.latches = s.latches ∧ u.regs = s.regs ∧
      u.out = s.out ∧ u.inputs = s.inputs ∧ u.draws = s.draws

/-- R233: at no step of a DIGEST is `h`, `t`, `buf`, `bufIdx`, `ds` or CTX_VALID written, nor an error field, a latch, an
operand register or `k`. -/
def Obligations.DigestDoesNotMutate : Prop :=
  ∀ (s t : State) (n : Nat), s.busy = false → s.status.ctxValid = true → exec .digest s = .next t →
    (engineRun n t).ctx = s.ctx ∧ (engineRun n t).status.ctxValid = s.status.ctxValid ∧
      (engineRun n t).status = { s.status with dvalid := (engineRun n t).status.dvalid } ∧
      (engineRun n t).latches = s.latches ∧ (engineRun n t).regs = s.regs ∧ (engineRun n t).ctrl.k = s.ctrl.k

/-- What acceptance may write (R253, R254, R210, R195, R230): the latches, the controller and STATUS, for every
instruction in every state. -/
def Obligations.AcceptanceFrame : Prop :=
  ∀ (i : Instr) (s t : State), exec i s = .next t →
    t.ctx = s.ctx ∧ t.dp = s.dp ∧ t.regs = s.regs ∧ t.dreg = s.dreg ∧ t.out = s.out ∧ t.inputs = s.inputs ∧
      t.draws = s.draws

/-- R253: what each accepted command latches, and that a running command does not see operand registers written after
acceptance. That an INIT refused with PARAM latches its operands too is log entry 9, not the rule. -/
def Obligations.OperandsAreLatched : Prop :=
  (∀ s : State, s.busy = false → ∃ t, exec .init s = .next t ∧ t.latches = { s.latches with
    param := s.regs.param, key := s.regs.key, salt := s.regs.salt, pers := s.regs.pers }) ∧
  (∀ (s : State) (cnt : BitVec 3), s.busy = false → s.status.ctxValid = true → cnt.toNat ≤ 4 →
    ∃ t, exec (.absorb cnt) s = .next t ∧ t.latches = { s.latches with data := s.regs.data, cnt := cnt }) ∧
  (∀ s : State, s.busy = false → ∃ t, exec .nop s = .next t ∧ t.latches = s.latches) ∧
  (∀ s : State, s.busy = false → s.status.ctxValid = true → ∃ t, exec .digest s = .next t ∧ t.latches = s.latches) ∧
  ∀ (s : State) (reg : Reg) (w : Word) (n : Nat),
    engineRun n (storeOperand reg w s) = storeOperand reg w (engineRun n s)

/-- R257: what each accepted command writes by its completion, and what a rejected one does. -/
def Obligations.CommandWriteTable : Prop :=
  (∀ s : State, s.busy = false → runCommand .nop s = s) ∧
  (∀ s : State, s.busy = false → paramOK s.regs.param = false →
    (runCommand .init s).ctx = s.ctx ∧ (runCommand .init s).dreg = s.dreg ∧ (runCommand .init s).busy = false ∧
      (runCommand .init s).status.ctxValid = false ∧ (runCommand .init s).status.dvalid = false) ∧
  (∀ s : State, s.busy = false → paramOK s.regs.param = true →
    (runCommand .init s).ctx.t = 0 ∧ (runCommand .init s).dreg = s.dreg ∧ (runCommand .init s).busy = false ∧
      (runCommand .init s).status.ctxValid = true ∧ (runCommand .init s).status.dvalid = false) ∧
  (∀ (s : State) (cnt : BitVec 3), s.busy = false → s.status.ctxValid = true → cnt.toNat ≤ 4 → s.ctx.bufIdx.toNat ≤ 64 →
    (runCommand (.absorb cnt) s).ctx.ds = s.ctx.ds ∧ (runCommand (.absorb cnt) s).status.ctxValid = true ∧
      (runCommand (.absorb cnt) s).status.dvalid = false ∧ (runCommand (.absorb cnt) s).dreg = s.dreg ∧
      (runCommand (.absorb cnt) s).busy = false) ∧
  (∀ s : State, s.busy = false → s.status.ctxValid = true →
    (runCommand .digest s).ctx = s.ctx ∧ (runCommand .digest s).status.ctxValid = true ∧
      (runCommand .digest s).status.dvalid = true ∧ (runCommand .digest s).busy = false) ∧
  ∀ (s t : State) (w : Word), s.busy = true ∨ ¬ LegalWord w ∨ (NeedsContext w ∧ s.status.ctxValid = false) →
    present w s = .next t → t = s.withErrorOf t.status

/-- R258: a command accepted and run by the controller leaves what the command-level function gives, in everything but
the scratch registers. -/
def Obligations.ControllerRefinesCommandLevel : Prop :=
  ∀ (i : Instr) (s : State), s.busy = false → s.ctx.bufIdx.toNat ≤ 64 →
    ∃ t, exec i s = .next t ∧ (engineRun (commandSteps i s) t).SameArchitecture (commandLevel i s)

/-- R255: the engine never hangs: from every state, whatever the controller is doing, it reaches IDLE; and a command in
progress takes exactly its number of steps. -/
def Obligations.EveryCommandCompletes : Prop :=
  (∀ s : State, ∃ n, (engineRun n s).busy = false) ∧
  (∀ (s t : State) (i : Instr), s.busy = false → s.ctx.bufIdx.toNat ≤ 64 → exec i s = .next t → t.busy = true →
    (∀ m, m < commandSteps i s → (engineRun m t).busy = true) ∧ (engineRun (commandSteps i s) t).busy = false)

/-- R172: while a command runs, no host access, of whatever kind, changes what the engine does: the cycle's controller
steps give the same engine as without the access. -/
def Obligations.RunningCommandIsUndisturbed : Prop :=
  ∀ (s t : State) (c : Cycle), s.busy = true → c.rst = false → cycle c s = .next t →
    (engineRun c.engineSteps s).SameEngine t

/-- R254: while a command runs, STATUS keeps what acceptance left until the step that completes it, and in a state of the
invariant the digest registers read 0. -/
def Obligations.BusyShowsWhatAcceptanceLeft : Prop :=
  ∀ s : State, s.Inv → s.busy = true →
    ((engineStep s).busy = true → (engineStep s).status = s.status ∧ (engineStep s).dreg = s.dreg) ∧
    ∀ i : Fin 8, s.Reads (BitVec.ofNat 8 (0x40 + 4 * i.val)) 0

/-- R235: a second DIGEST on the same context writes the same digest, and an ABSORB after a DIGEST leaves what it would
have left without it. -/
def Obligations.DigestRepeatsAndIsTransparent : Prop :=
  (∀ s t : State, s.busy = false → t.busy = false → s.status.ctxValid = true → t.status.ctxValid = true →
    t.ctx = (runCommand .digest s).ctx → (runCommand .digest t).dreg = (runCommand .digest s).dreg) ∧
  ∀ (s : State) (cnt : BitVec 3), s.busy = false → s.status.ctxValid = true → cnt.toNat ≤ 4 → s.ctx.bufIdx.toNat ≤ 64 →
    (runCommand (.absorb cnt) (runCommand .digest s)).ctx = (runCommand (.absorb cnt) s).ctx ∧
    (runCommand (.absorb cnt) (runCommand .digest s)).status = (runCommand (.absorb cnt) s).status

/-- R197: any two sequences of ABSORB commands with the same bytes leave the same context. -/
def Obligations.StreamingContract : Prop :=
  ∀ (s : State) (xs ys : List (Word × BitVec 3)), s.busy = false → s.status.ctxValid = true → s.ctx.bufIdx.toNat ≤ 64 →
    (∀ x ∈ xs, x.2.toNat ≤ 4) → (∀ y ∈ ys, y.2.toNat ≤ 4) → chunkBytes xs = chunkBytes ys →
    (xs.foldl runAbsorb s).ctx = (ys.foldl runAbsorb s).ctx

/-- R214, R40: a successful INIT discards the old context: two engines that differ in it (and in anything else but the
operand registers) then hold the same context, and every later absorption gives the same final state. -/
def Obligations.InitDiscardsTheOldContext : Prop :=
  ∀ s t : State, s.busy = false → t.busy = false → s.regs = t.regs → paramOK s.regs.param = true →
    (runCommand .init s).ctx.SameMeaning (runCommand .init t).ctx ∧
    ∀ bs : List Byte, finalState (absorbBytes bs (runCommand .init s).ctx) =
      finalState (absorbBytes bs (runCommand .init t).ctx)

/-! ## The algorithm's parts -/

/-- R13: packing and unpacking of words are inverse to each other. -/
def Obligations.LittleEndianPacking : Prop :=
  (∀ w : Word, le32 (byteOf w 0) (byteOf w 1) (byteOf w 2) (byteOf w 3) = w) ∧
  ∀ b0 b1 b2 b3 : Byte, byteOf (le32 b0 b1 b2 b3) 0 = b0 ∧ byteOf (le32 b0 b1 b2 b3) 1 = b1 ∧
    byteOf (le32 b0 b1 b2 b3) 2 = b2 ∧ byteOf (le32 b0 b1 b2 b3) 3 = b3

/-- R121: `ParamOK` holds exactly when no constraint is violated, DS = 0 being valid. -/
def Obligations.ParameterCheck : Prop :=
  ∀ param : Word, (paramOK param = true ↔ (slField param).toNat ≤ 8 ∧ (plField param).toNat ≤ 8 ∧
      (klField param).toNat ≤ 32 ∧ (dsField param).toNat ≤ 32) ∧
    (pcauseOf param).toNat = (if 8 < (slField param).toNat then 1 else 0) + (if 8 < (plField param).toNat then 2 else 0) +
      (if 32 < (klField param).toNat then 4 else 0) + (if 32 < (dsField param).toNat then 8 else 0)

/-- R122 to R127: the words of the parameter block. -/
def Obligations.ParameterBlockWords : Prop :=
  ∀ (param : Word) (salt pers : Vector Word 2), paramOK param = true →
    (paramWords param salt pers)[0] =
      BitVec.ofNat 32 (if dsField param = 0 then 32 else (dsField param).toNat) |||
        (klField param).setWidth 32 <<< 8 ||| 1 <<< 16 ||| 1 <<< 24 ∧
    (∀ i : Fin 16, (i.val ∈ [1, 2, 3] ∨ 8 ≤ i.val) → (paramWords param salt pers)[i] = 0) ∧
    (∀ i : Fin 2, ∀ j : Fin 4,
      byteOf (paramWords param salt pers)[4 + i.val] j.val =
        (if 4 * i.val + j.val < (slField param).toNat then byteOf salt[i] j.val else 0) ∧
      byteOf (paramWords param salt pers)[6 + i.val] j.val =
        (if 4 * i.val + j.val < (plField param).toNat then byteOf pers[i] j.val else 0))

/-- R128: without salt and personalization words 4..7 are 0, and register bytes past SL and PL do not matter (so a salt
ending in zero bytes gives the block of the shorter one). -/
def Obligations.ParameterBlockIgnoresUnusedBytes : Prop :=
  (∀ (param : Word) (salt pers : Vector Word 2), slField param = 0 → plField param = 0 →
    ∀ i : Fin 16, 4 ≤ i.val → i.val < 8 → (paramWords param salt pers)[i] = 0) ∧
  (∀ (param : Word) (salt pers salt' pers' : Vector Word 2),
    (∀ i : Fin 8, i.val < (slField param).toNat → laneByte salt i.val (by omega) = laneByte salt' i.val (by omega)) →
    (∀ i : Fin 8, i.val < (plField param).toNat → laneByte pers i.val (by omega) = laneByte pers' i.val (by omega)) →
    paramBytes param salt pers = paramBytes param salt' pers') ∧
  ∀ (param param' : Word) (salt pers : Vector Word 2), dsField param = dsField param' → klField param = klField param' →
    plField param = plField param' → (slField param).toNat ≤ (slField param').toNat →
    (∀ i : Fin 8, (slField param).toNat ≤ i.val → laneByte salt i.val (by omega) = 0) →
    paramBytes param salt pers = paramBytes param' salt pers

/-- R141: `rotr` moves bit `(i + n) mod 32` to bit `i`. -/
def Obligations.RotationMovesBits : Prop :=
  ∀ (x : Word) (n i : Nat), n ∈ [16, 12, 8, 7] → i < 32 → (rotr x n).getLsbD i = x.getLsbD ((i + n) % 32)

/-- R142: the four words G writes, and that it writes no other. -/
def Obligations.MixingWritesFourWords : Prop :=
  ∀ (a b c d : Fin 16) (x y : Word) (v : Vector Word 16), [a, b, c, d].Nodup →
    ∀ a1 d1 c1 b1 a2 d2 c2 b2 : Word,
      a1 = v[a] + v[b] + x → d1 = rotr (v[d] ^^^ a1) 16 → c1 = v[c] + d1 → b1 = rotr (v[b] ^^^ c1) 12 →
      a2 = a1 + b1 + y → d2 = rotr (d1 ^^^ a2) 8 → c2 = c1 + d2 → b2 = rotr (b1 ^^^ c2) 7 →
      (mixG a b c d x y v)[a] = a2 ∧ (mixG a b c d x y v)[b] = b2 ∧ (mixG a b c d x y v)[c] = c2 ∧
      (mixG a b c d x y v)[d] = d2 ∧ ∀ i : Fin 16, i ∉ [a, b, c, d] → (mixG a b c d x y v)[i] = v[i]

/-- R145: G calls on disjoint index sets commute, and the column groups are pairwise disjoint, as are the diagonal ones. -/
def Obligations.DisjointMixingsCommute : Prop :=
  (∀ (a b c d a' b' c' d' : Fin 16) (x y x' y' : Word) (v : Vector Word 16),
    (∀ i ∈ [a, b, c, d], i ∉ [a', b', c', d']) →
    mixG a b c d x y (mixG a' b' c' d' x' y' v) = mixG a' b' c' d' x' y' (mixG a b c d x y v)) ∧
  ∀ i j : Fin 8, i ≠ j → (i.val < 4 ↔ j.val < 4) →
    ∀ p ∈ [groups[i].1, groups[i].2.1, groups[i].2.2.1, groups[i].2.2.2],
      p ∉ [groups[j].1, groups[j].2.1, groups[j].2.2.1, groups[j].2.2.2]

/-- R160 to R163, R168: the parts of one compression around its rounds. -/
def Obligations.CompressionFramesTheRounds : Prop :=
  ∀ (H : Vector Word 8) (B : Block) (T : BitVec 64) (F : Bool),
    (∀ i : Fin 8, (initVector H T F)[i.val] = H[i]) ∧
    (∀ i : Fin 4, (initVector H T F)[8 + i.val] = iv[i.val]) ∧
    (initVector H T F)[12] = iv[4] ^^^ T.extractLsb' 0 32 ∧ (initVector H T F)[13] = iv[5] ^^^ T.extractLsb' 32 32 ∧
    (initVector H T F)[14] = (if F then ~~~ iv[6] else iv[6]) ∧ (initVector H T F)[15] = iv[7] ∧
    (∀ i : Fin 16, (blockWords B)[i] = le32 B[4 * i.val] B[4 * i.val + 1] B[4 * i.val + 2] B[4 * i.val + 3]) ∧
    ∀ i : Fin 8, (compress H B T F)[i] = H[i] ^^^ (rounds (blockWords B) (initVector H T F))[i.val] ^^^
      (rounds (blockWords B) (initVector H T F))[i.val + 8]

/-- R171: entered at `C_LOAD`, the controller takes exactly 82 steps, 1 `C_LOAD`, 80 `C_G` and 1 `C_OUT`, writes none of
its sources before `C_OUT`, and writes `Compress(Hsrc, Bsrc, Tsrc, fin)` to `Hdst`. -/
def Obligations.ControllerComputesCompress : Prop :=
  ∀ s : State, s.ctrl.ctl = .cLoad →
    (∀ m, 1 ≤ m → m ≤ 80 → (engineRun m s).ctrl.ctl = .cG) ∧ (engineRun 81 s).ctrl.ctl = .cOut ∧
    (∀ m, m ≤ 81 → (engineRun m s).ctx = s.ctx ∧ (engineRun m s).dp.ts = s.dp.ts ∧ (engineRun m s).dp.hs = s.dp.hs) ∧
    (s.ctrl.caller = .digest → s.ctrl.ret = .dOut →
      (engineRun 82 s).ctrl.ctl = .dOut ∧ (engineRun 82 s).ctx = s.ctx ∧
      (engineRun 82 s).dp.hs = compress s.ctx.h (padBlock s.ctx) s.dp.ts s.dp.fin) ∧
    (s.ctrl.caller ≠ .digest → s.ctrl.ret = .byteTail →
      (engineRun 82 s).ctrl.ctl ≠ .cOut ∧
      (engineRun 82 s).ctx.h = compress s.ctx.h s.ctx.buf s.ctx.t s.dp.fin ∧ (engineRun 82 s).ctx.t = s.ctx.t ∧
      (engineRun 82 s).dp.hs = s.dp.hs)

/-- R192: the counter's addition done on its two words, for 64 and for the fill count, and the wrap at 2^64. -/
def Obligations.CounterArithmeticOnWords : Prop :=
  (∀ (t : BitVec 64) (n : Nat), n ≤ 64 →
    tLo (t + BitVec.ofNat 64 n) = tLo t + BitVec.ofNat 32 n ∧
    tHi (t + BitVec.ofNat 64 n) = tHi t + (if (tLo (t + BitVec.ofNat 64 n)).toNat < n then 1 else 0)) ∧
  (∀ c : Context, (advanceCounter c).t = c.t + BitVec.ofNat 64 64 ∧
    snapshotCounter c = c.t + BitVec.ofNat 64 c.bufIdx.toNat) ∧
  (0x00000000FFFFFFC0 : BitVec 64) + 64 = 0x0000000100000000 ∧
  (0x00000000FFFFFFFF : BitVec 64) + 64 = 0x000000010000003F ∧
  (0xFFFFFFFFFFFFFFC0 : BitVec 64) + 64 = 0

/-- R194: the closed form of absorbing `n` bytes: how many compressions run (a byte finds the buffer full), and the fill
count and the counter afterwards. -/
def Obligations.AbsorptionClosedForm : Prop :=
  ∀ (c : Context) (bs : List Byte), c.bufIdx.toNat ≤ 64 →
    (bs = [] → absorbBytes bs c = c) ∧
    (bs ≠ [] → ∀ N : Nat, N = c.bufIdx.toNat + bs.length →
      ((List.range bs.length).filter fun i => (absorbBytes (bs.take i) c).bufIdx = 64).length = (N - 1) / 64 ∧
      (absorbBytes bs c).bufIdx.toNat = (N - 1) % 64 + 1 ∧
      (absorbBytes bs c).t = c.t + BitVec.ofNat 64 (64 * ((N - 1) / 64)))

/-- The stream as blocks (from R191, R194, R231, R232): after absorbing bytes into an empty buffer, `h` is the fold of the
non-final compressions over the full blocks but the last, and the final compression covers the last, zero-padded block
with the counter at the number of bytes. -/
def Obligations.StreamingIsBlockwise : Prop :=
  ∀ (c : Context) (bs : List Byte), c.bufIdx = 0 → bs ≠ [] → ∀ q : Nat, q = (bs.length - 1) / 64 →
    (absorbBytes bs c).h = (List.range q).foldl
      (fun h i => compress h (blockAt bs i) (c.t + BitVec.ofNat 64 (64 * (i + 1))) false) c.h ∧
    (absorbBytes bs c).ds = c.ds ∧
    finalState (absorbBytes bs c) =
      compress (absorbBytes bs c).h (blockAt bs q) (c.t + BitVec.ofNat 64 bs.length) true

/-- R63, R234: the digest registers carry the first `ds` bytes of the final state, little-endian, and 0 past them. -/
def Obligations.DigestSerialization : Prop :=
  ∀ (hs : Vector Word 8) (ds : BitVec 6) (i : Fin 8) (j : Fin 4),
    byteOf (extractDigest hs ds)[i] j.val = if 4 * i.val + j.val < ds.toNat then byteOf hs[i] j.val else 0

/-- R237: the hex string has two characters a byte, all lowercase hexadecimal digits, high nibble first. -/
def Obligations.HexDigestForm : Prop :=
  ∀ d : List Byte, (digestHex d).length = 2 * d.length ∧ (∀ ch ∈ digestHex d, ch ∈ "0123456789abcdef".toList) ∧
    ∀ (k : Nat) (h : k < d.length),
      (digestHex d)[2 * k]? = "0123456789abcdef".toList[d[k].toNat / 16]? ∧
      (digestHex d)[2 * k + 1]? = "0123456789abcdef".toList[d[k].toNat % 16]?

/-! ## Whole-machine rules -/

/-- The invariant (R25, R26, R42, R170) holds right after reset. -/
def Obligations.InvariantAtReset : Prop := State.reset.Inv

/-- Every step keeps the invariant: the error fields agree, a valid context has its ranges and a counter
of whole blocks, a valid digest has its context and no running command, and each controller state has the registers it
relies on. -/
def Obligations.EveryStepKeepsTheInvariant : Prop := ∀ s t : State, s.Inv → step s = .next t → t.Inv

/-- R47, R52, R286: what a read returns depends on the readable state alone: not on the key, the chaining state, the
buffer, the latches or the datapath. -/
def Obligations.ReadsRevealNoHiddenState : Prop :=
  ∀ (s s' : State) (c : Cycle), s.SameReadable s' → c.we = false →
    ∃ t t', serve c s = .next t ∧ serve c s' = .next t' ∧ t.out = t'.out ∧ t.SameReadable t'

/-- R20 to R25, R257 as a whole-machine rule: no host access writes the context, a CMD write included; and of the steps of
a running command only `I_SEED` writes `ds`, and only it and the streaming path write the rest: `BYTE`, and `C_OUT`, `h`
there for a caller other than DIGEST and `buf` and `bufIdx` on the way back to `BYTE'`, which in a state of the invariant
is ABSORB's. (A reset edge is not covered: R300 leaves the context arbitrary.) -/
def Obligations.OnlyTheStreamingPathWritesTheContext : Prop :=
  (∀ (s t : State) (c : Cycle), serve c s = .next t → t.ctx = s.ctx) ∧
  ∀ s : State,
    ((engineStep s).ctx.ds ≠ s.ctx.ds → s.ctrl.ctl = .iSeed) ∧
    ((engineStep s).ctx.h ≠ s.ctx.h → s.ctrl.ctl = .iSeed ∨ (s.ctrl.ctl = .cOut ∧ s.ctrl.caller ≠ .digest)) ∧
    ((engineStep s).ctx.t ≠ s.ctx.t → s.ctrl.ctl = .iSeed ∨
      (s.ctrl.ctl = .byte ∧ s.ctx.bufIdx = 64 ∧ (engineStep s).ctx.t = s.ctx.t + 64)) ∧
    ((engineStep s).ctx.buf ≠ s.ctx.buf →
      s.ctrl.ctl = .byte ∨ (s.ctrl.ctl = .cOut ∧ s.ctrl.ret = .byteTail)) ∧
    ((engineStep s).ctx.bufIdx ≠ s.ctx.bufIdx →
      s.ctrl.ctl = .iSeed ∨ s.ctrl.ctl = .byte ∨ (s.ctrl.ctl = .cOut ∧ s.ctrl.ret = .byteTail)) ∧
    (s.Inv → s.ctrl.ctl = .cOut → s.ctrl.ret = .byteTail → s.ctrl.caller = .absorb) ∧
    ((engineStep s).status.ctxValid ≠ s.status.ctxValid →
      (engineStep s).status.ctxValid = true ∧ (engineStep s).busy = false)

/-- R99, R304: from any engine at rest, the host program CREATE followed by GETDIGEST ends and reads the digest of the
message under its key, salt, personalization and digest size. The host makes one access a cycle (log entry 16), with one
controller step each (log entry 4). -/
def Obligations.HostProgramReadsTheDigest : Prop :=
  ∀ (msg key salt pers : List Byte) (ds : Byte) (e : State), e.busy = false → key.length ≤ 32 → salt.length ≤ 8 →
    pers.length ≤ 8 → ds.toNat ≤ 32 →
    ∃ n y c, sessionRun n { engine := e, prog := create msg key salt pers ds ++ getDigest, results := [] } = .next y ∧
      c = absorbBytes msg (initContext (createLatches key salt pers ds) e.ctx) ∧ y.prog = [] ∧ y.engine.busy = false ∧
      y.results = (extractDigest (finalState c) c.ds).toList
end

