-- ==== Sys2Proof/Laws/State.lean ====
section
/-! SUPPORT. One lemma per field per update of `State`, so that no proof unfolds a record update; BUSY, a view of the
controller, after each update; and the fields of the state after reset. -/

namespace Sys2Proof.Machine

variable (s : State)

@[simp] theorem State.withCtx_ctx (x : Context) : (s.withCtx x).ctx = x := rfl
@[simp] theorem State.withCtx_ctrl (x : Context) : (s.withCtx x).ctrl = s.ctrl := rfl
@[simp] theorem State.withCtx_dp (x : Context) : (s.withCtx x).dp = s.dp := rfl
@[simp] theorem State.withCtx_latches (x : Context) : (s.withCtx x).latches = s.latches := rfl
@[simp] theorem State.withCtx_regs (x : Context) : (s.withCtx x).regs = s.regs := rfl
@[simp] theorem State.withCtx_status (x : Context) : (s.withCtx x).status = s.status := rfl
@[simp] theorem State.withCtx_dreg (x : Context) : (s.withCtx x).dreg = s.dreg := rfl
@[simp] theorem State.withCtx_out (x : Context) : (s.withCtx x).out = s.out := rfl
@[simp] theorem State.withCtx_inputs (x : Context) : (s.withCtx x).inputs = s.inputs := rfl
@[simp] theorem State.withCtx_draws (x : Context) : (s.withCtx x).draws = s.draws := rfl
@[simp] theorem State.withCtx_busy (x : Context) : (s.withCtx x).busy = s.busy := rfl

@[simp] theorem State.withCtrl_ctx (x : Controller) : (s.withCtrl x).ctx = s.ctx := rfl
@[simp] theorem State.withCtrl_ctrl (x : Controller) : (s.withCtrl x).ctrl = x := rfl
@[simp] theorem State.withCtrl_dp (x : Controller) : (s.withCtrl x).dp = s.dp := rfl
@[simp] theorem State.withCtrl_latches (x : Controller) : (s.withCtrl x).latches = s.latches := rfl
@[simp] theorem State.withCtrl_regs (x : Controller) : (s.withCtrl x).regs = s.regs := rfl
@[simp] theorem State.withCtrl_status (x : Controller) : (s.withCtrl x).status = s.status := rfl
@[simp] theorem State.withCtrl_dreg (x : Controller) : (s.withCtrl x).dreg = s.dreg := rfl
@[simp] theorem State.withCtrl_out (x : Controller) : (s.withCtrl x).out = s.out := rfl
@[simp] theorem State.withCtrl_inputs (x : Controller) : (s.withCtrl x).inputs = s.inputs := rfl
@[simp] theorem State.withCtrl_draws (x : Controller) : (s.withCtrl x).draws = s.draws := rfl

@[simp] theorem State.withDp_ctx (x : Datapath) : (s.withDp x).ctx = s.ctx := rfl
@[simp] theorem State.withDp_ctrl (x : Datapath) : (s.withDp x).ctrl = s.ctrl := rfl
@[simp] theorem State.withDp_dp (x : Datapath) : (s.withDp x).dp = x := rfl
@[simp] theorem State.withDp_latches (x : Datapath) : (s.withDp x).latches = s.latches := rfl
@[simp] theorem State.withDp_regs (x : Datapath) : (s.withDp x).regs = s.regs := rfl
@[simp] theorem State.withDp_status (x : Datapath) : (s.withDp x).status = s.status := rfl
@[simp] theorem State.withDp_dreg (x : Datapath) : (s.withDp x).dreg = s.dreg := rfl
@[simp] theorem State.withDp_out (x : Datapath) : (s.withDp x).out = s.out := rfl
@[simp] theorem State.withDp_inputs (x : Datapath) : (s.withDp x).inputs = s.inputs := rfl
@[simp] theorem State.withDp_draws (x : Datapath) : (s.withDp x).draws = s.draws := rfl
@[simp] theorem State.withDp_busy (x : Datapath) : (s.withDp x).busy = s.busy := rfl

@[simp] theorem State.withLatches_ctx (x : Latches) : (s.withLatches x).ctx = s.ctx := rfl
@[simp] theorem State.withLatches_ctrl (x : Latches) : (s.withLatches x).ctrl = s.ctrl := rfl
@[simp] theorem State.withLatches_dp (x : Latches) : (s.withLatches x).dp = s.dp := rfl
@[simp] theorem State.withLatches_latches (x : Latches) : (s.withLatches x).latches = x := rfl
@[simp] theorem State.withLatches_regs (x : Latches) : (s.withLatches x).regs = s.regs := rfl
@[simp] theorem State.withLatches_status (x : Latches) : (s.withLatches x).status = s.status := rfl
@[simp] theorem State.withLatches_dreg (x : Latches) : (s.withLatches x).dreg = s.dreg := rfl
@[simp] theorem State.withLatches_out (x : Latches) : (s.withLatches x).out = s.out := rfl
@[simp] theorem State.withLatches_inputs (x : Latches) : (s.withLatches x).inputs = s.inputs := rfl
@[simp] theorem State.withLatches_draws (x : Latches) : (s.withLatches x).draws = s.draws := rfl
@[simp] theorem State.withLatches_busy (x : Latches) : (s.withLatches x).busy = s.busy := rfl

@[simp] theorem State.withRegs_ctx (x : OperandRegs) : (s.withRegs x).ctx = s.ctx := rfl
@[simp] theorem State.withRegs_ctrl (x : OperandRegs) : (s.withRegs x).ctrl = s.ctrl := rfl
@[simp] theorem State.withRegs_dp (x : OperandRegs) : (s.withRegs x).dp = s.dp := rfl
@[simp] theorem State.withRegs_latches (x : OperandRegs) : (s.withRegs x).latches = s.latches := rfl
@[simp] theorem State.withRegs_regs (x : OperandRegs) : (s.withRegs x).regs = x := rfl
@[simp] theorem State.withRegs_status (x : OperandRegs) : (s.withRegs x).status = s.status := rfl
@[simp] theorem State.withRegs_dreg (x : OperandRegs) : (s.withRegs x).dreg = s.dreg := rfl
@[simp] theorem State.withRegs_out (x : OperandRegs) : (s.withRegs x).out = s.out := rfl
@[simp] theorem State.withRegs_inputs (x : OperandRegs) : (s.withRegs x).inputs = s.inputs := rfl
@[simp] theorem State.withRegs_draws (x : OperandRegs) : (s.withRegs x).draws = s.draws := rfl
@[simp] theorem State.withRegs_busy (x : OperandRegs) : (s.withRegs x).busy = s.busy := rfl

@[simp] theorem State.withStatus_ctx (x : Status) : (s.withStatus x).ctx = s.ctx := rfl
@[simp] theorem State.withStatus_ctrl (x : Status) : (s.withStatus x).ctrl = s.ctrl := rfl
@[simp] theorem State.withStatus_dp (x : Status) : (s.withStatus x).dp = s.dp := rfl
@[simp] theorem State.withStatus_latches (x : Status) : (s.withStatus x).latches = s.latches := rfl
@[simp] theorem State.withStatus_regs (x : Status) : (s.withStatus x).regs = s.regs := rfl
@[simp] theorem State.withStatus_status (x : Status) : (s.withStatus x).status = x := rfl
@[simp] theorem State.withStatus_dreg (x : Status) : (s.withStatus x).dreg = s.dreg := rfl
@[simp] theorem State.withStatus_out (x : Status) : (s.withStatus x).out = s.out := rfl
@[simp] theorem State.withStatus_inputs (x : Status) : (s.withStatus x).inputs = s.inputs := rfl
@[simp] theorem State.withStatus_draws (x : Status) : (s.withStatus x).draws = s.draws := rfl
@[simp] theorem State.withStatus_busy (x : Status) : (s.withStatus x).busy = s.busy := rfl

@[simp] theorem State.withDreg_ctx (x : Vector Word 8) : (s.withDreg x).ctx = s.ctx := rfl
@[simp] theorem State.withDreg_ctrl (x : Vector Word 8) : (s.withDreg x).ctrl = s.ctrl := rfl
@[simp] theorem State.withDreg_dp (x : Vector Word 8) : (s.withDreg x).dp = s.dp := rfl
@[simp] theorem State.withDreg_latches (x : Vector Word 8) : (s.withDreg x).latches = s.latches := rfl
@[simp] theorem State.withDreg_regs (x : Vector Word 8) : (s.withDreg x).regs = s.regs := rfl
@[simp] theorem State.withDreg_status (x : Vector Word 8) : (s.withDreg x).status = s.status := rfl
@[simp] theorem State.withDreg_dreg (x : Vector Word 8) : (s.withDreg x).dreg = x := rfl
@[simp] theorem State.withDreg_out (x : Vector Word 8) : (s.withDreg x).out = s.out := rfl
@[simp] theorem State.withDreg_inputs (x : Vector Word 8) : (s.withDreg x).inputs = s.inputs := rfl
@[simp] theorem State.withDreg_draws (x : Vector Word 8) : (s.withDreg x).draws = s.draws := rfl
@[simp] theorem State.withDreg_busy (x : Vector Word 8) : (s.withDreg x).busy = s.busy := rfl

@[simp] theorem State.withOut_ctx (x : Outputs) : (s.withOut x).ctx = s.ctx := rfl
@[simp] theorem State.withOut_ctrl (x : Outputs) : (s.withOut x).ctrl = s.ctrl := rfl
@[simp] theorem State.withOut_dp (x : Outputs) : (s.withOut x).dp = s.dp := rfl
@[simp] theorem State.withOut_latches (x : Outputs) : (s.withOut x).latches = s.latches := rfl
@[simp] theorem State.withOut_regs (x : Outputs) : (s.withOut x).regs = s.regs := rfl
@[simp] theorem State.withOut_status (x : Outputs) : (s.withOut x).status = s.status := rfl
@[simp] theorem State.withOut_dreg (x : Outputs) : (s.withOut x).dreg = s.dreg := rfl
@[simp] theorem State.withOut_out (x : Outputs) : (s.withOut x).out = x := rfl
@[simp] theorem State.withOut_inputs (x : Outputs) : (s.withOut x).inputs = s.inputs := rfl
@[simp] theorem State.withOut_draws (x : Outputs) : (s.withOut x).draws = s.draws := rfl
@[simp] theorem State.withOut_busy (x : Outputs) : (s.withOut x).busy = s.busy := rfl

@[simp] theorem State.withInputs_ctx (x : List Cycle) : (s.withInputs x).ctx = s.ctx := rfl
@[simp] theorem State.withInputs_ctrl (x : List Cycle) : (s.withInputs x).ctrl = s.ctrl := rfl
@[simp] theorem State.withInputs_dp (x : List Cycle) : (s.withInputs x).dp = s.dp := rfl
@[simp] theorem State.withInputs_latches (x : List Cycle) : (s.withInputs x).latches = s.latches := rfl
@[simp] theorem State.withInputs_regs (x : List Cycle) : (s.withInputs x).regs = s.regs := rfl
@[simp] theorem State.withInputs_status (x : List Cycle) : (s.withInputs x).status = s.status := rfl
@[simp] theorem State.withInputs_dreg (x : List Cycle) : (s.withInputs x).dreg = s.dreg := rfl
@[simp] theorem State.withInputs_out (x : List Cycle) : (s.withInputs x).out = s.out := rfl
@[simp] theorem State.withInputs_inputs (x : List Cycle) : (s.withInputs x).inputs = x := rfl
@[simp] theorem State.withInputs_draws (x : List Cycle) : (s.withInputs x).draws = s.draws := rfl
@[simp] theorem State.withInputs_busy (x : List Cycle) : (s.withInputs x).busy = s.busy := rfl

@[simp] theorem State.withDraws_ctx (x : Nat) : (s.withDraws x).ctx = s.ctx := rfl
@[simp] theorem State.withDraws_ctrl (x : Nat) : (s.withDraws x).ctrl = s.ctrl := rfl
@[simp] theorem State.withDraws_dp (x : Nat) : (s.withDraws x).dp = s.dp := rfl
@[simp] theorem State.withDraws_latches (x : Nat) : (s.withDraws x).latches = s.latches := rfl
@[simp] theorem State.withDraws_regs (x : Nat) : (s.withDraws x).regs = s.regs := rfl
@[simp] theorem State.withDraws_status (x : Nat) : (s.withDraws x).status = s.status := rfl
@[simp] theorem State.withDraws_dreg (x : Nat) : (s.withDraws x).dreg = s.dreg := rfl
@[simp] theorem State.withDraws_out (x : Nat) : (s.withDraws x).out = s.out := rfl
@[simp] theorem State.withDraws_inputs (x : Nat) : (s.withDraws x).inputs = s.inputs := rfl
@[simp] theorem State.withDraws_draws (x : Nat) : (s.withDraws x).draws = x := rfl
@[simp] theorem State.withDraws_busy (x : Nat) : (s.withDraws x).busy = s.busy := rfl

@[simp] theorem State.withCtrl_busy (x : Controller) : (s.withCtrl x).busy = (x.ctl != .idle) := rfl

theorem State.busy_eq_false : s.busy = false ↔ s.ctrl.ctl = .idle := by
  cases h : s.ctrl.ctl <;> simp [State.busy, h]

theorem State.busy_eq_true : s.busy = true ↔ s.ctrl.ctl ≠ .idle := by
  cases h : s.ctrl.ctl <;> simp [State.busy, h]

@[simp] theorem State.reset_busy : State.reset.busy = false := rfl
@[simp] theorem State.reset_ctrl_ctl : State.reset.ctrl.ctl = .idle := rfl
@[simp] theorem State.reset_status : State.reset.status = Status.reset := rfl
@[simp] theorem State.reset_regs : State.reset.regs = OperandRegs.reset := rfl
@[simp] theorem State.reset_inputs : State.reset.inputs = [] := rfl
@[simp] theorem State.reset_draws : State.reset.draws = 0 := rfl

end Sys2Proof.Machine
end

