-- ==== Sys2Proof/Laws/Ops.lean ====
section
/-! SUPPORT. What each shared operation can do: recording an error, the acceptance checks, the register writes and reads. -/

namespace Sys2Proof.Machine

@[simp] theorem onNext_next (s : State) (f : State → State) : onNext (.next s) f = .next (f s) := rfl

/-- `onNext` answers a next state exactly when its outcome does, and applies `f` to it. -/
theorem onNext_eq_next {o : Host.Outcome State Fault Refusal} {f : State → State} {t : State} :
    onNext o f = .next t ↔ ∃ s, o = .next s ∧ f s = t := by
  cases o <;> simp [onNext]

theorem raiseError_of_clear {s : State} (h : s.status.err = false) (code : ErrCode) (pc : BitVec 4) :
    raiseError code pc s = s.withStatus { s.status with err := true, errCode := code, pcause := pc } := by
  simp [raiseError, h]

theorem raiseError_of_set {s : State} (h : s.status.err = true) (code : ErrCode) (pc : BitVec 4) :
    raiseError code pc s = s := by
  simp [raiseError, h]

/-- Recording an error writes at most the error fields. -/
theorem raiseError_eq_withStatus (code : ErrCode) (pc : BitVec 4) (s : State) :
    raiseError code pc s = s.withStatus { s.status with
      err := true
      errCode := if s.status.err then s.status.errCode else code
      pcause := if s.status.err then s.status.pcause else pc } := by
  cases h : s.status.err
  · simp [raiseError, h]
  · simp only [raiseError_of_set h, if_true]
    rw [← h]
    rfl

section
variable (code : ErrCode) (pc : BitVec 4) (s : State)

@[simp] theorem raiseError_ctx : (raiseError code pc s).ctx = s.ctx := by simp [raiseError_eq_withStatus]
@[simp] theorem raiseError_ctrl : (raiseError code pc s).ctrl = s.ctrl := by simp [raiseError_eq_withStatus]
@[simp] theorem raiseError_dp : (raiseError code pc s).dp = s.dp := by simp [raiseError_eq_withStatus]
@[simp] theorem raiseError_latches : (raiseError code pc s).latches = s.latches := by simp [raiseError_eq_withStatus]
@[simp] theorem raiseError_regs : (raiseError code pc s).regs = s.regs := by simp [raiseError_eq_withStatus]
@[simp] theorem raiseError_dreg : (raiseError code pc s).dreg = s.dreg := by simp [raiseError_eq_withStatus]
@[simp] theorem raiseError_out : (raiseError code pc s).out = s.out := by simp [raiseError_eq_withStatus]
@[simp] theorem raiseError_inputs : (raiseError code pc s).inputs = s.inputs := by simp [raiseError_eq_withStatus]
@[simp] theorem raiseError_draws : (raiseError code pc s).draws = s.draws := by simp [raiseError_eq_withStatus]
@[simp] theorem raiseError_busy : (raiseError code pc s).busy = s.busy := by simp [raiseError_eq_withStatus]
@[simp] theorem raiseError_ctxValid : (raiseError code pc s).status.ctxValid = s.status.ctxValid := by
  simp [raiseError_eq_withStatus]
@[simp] theorem raiseError_dvalid : (raiseError code pc s).status.dvalid = s.status.dvalid := by
  simp [raiseError_eq_withStatus]
@[simp] theorem raiseError_err : (raiseError code pc s).status.err = true := by simp [raiseError_eq_withStatus]
end

/-- The four ways the acceptance checks can end. -/
theorem accepting_cases (legal needsCtx : Bool) (s : State) (effect : State → State) :
    (s.busy = true ∧ accepting legal needsCtx s effect = raiseError .busyCmd 0 s) ∨
    (s.busy = false ∧ legal = false ∧ accepting legal needsCtx s effect = raiseError .illegalCmd 0 s) ∨
    (s.busy = false ∧ legal = true ∧ needsCtx = true ∧ s.status.ctxValid = false ∧
      accepting legal needsCtx s effect = raiseError .noContext 0 s) ∨
    (s.busy = false ∧ legal = true ∧ (needsCtx = true → s.status.ctxValid = true) ∧
      accepting legal needsCtx s effect = effect s) := by
  cases hb : s.busy <;> cases legal <;> cases needsCtx <;> cases hc : s.status.ctxValid <;>
    simp [accepting, hb, hc]

theorem accepting_of_busy {s : State} (h : s.busy = true) (legal needsCtx : Bool) (effect : State → State) :
    accepting legal needsCtx s effect = raiseError .busyCmd 0 s := by
  simp [accepting, h]

theorem accepting_of_ok {legal needsCtx : Bool} {s : State} (hb : s.busy = false) (hl : legal = true)
    (hc : needsCtx = true → s.status.ctxValid = true) (effect : State → State) :
    accepting legal needsCtx s effect = effect s := by
  cases needsCtx <;> simp_all [accepting]

section
variable (reg : Reg) (w : Word) (s : State)

@[simp] theorem storeOperand_regs : (storeOperand reg w s).regs = storeReg reg w s.regs := rfl
@[simp] theorem storeOperand_busy : (storeOperand reg w s).busy = s.busy := rfl
@[simp] theorem storeOperand_status : (storeOperand reg w s).status = s.status := rfl
end

/-- A write to STATUS writes at most the error fields. -/
theorem writeStatus_eq_withStatus (w : Word) (s : State) :
    writeStatus w s = s.withStatus { s.status with
      err := (writeStatus w s).status.err
      errCode := (writeStatus w s).status.errCode
      pcause := (writeStatus w s).status.pcause } := by
  unfold writeStatus clearError
  cases w.getLsbD 3 <;> rfl

end Sys2Proof.Machine
end

