-- ==== Sys2Proof/Laws/Controller.lean ====
section
/-! SUPPORT. What an engine step can do. The one fact the others rest on: a step neither reads nor writes the host's part
of the state (`HostPart`), so it commutes with any change of it. -/

namespace Sys2Proof.Machine

/-- The part of the state that only host accesses and the model's bookkeeping touch. -/
structure HostPart where
  regs : OperandRegs
  err : Bool
  errCode : ErrCode
  pcause : BitVec 4
  out : Outputs
  inputs : List Cycle
  draws : Nat

/-- The host's part of a state. -/
def State.host (s : State) : HostPart :=
  ⟨s.regs, s.status.err, s.status.errCode, s.status.pcause, s.out, s.inputs, s.draws⟩

/-- The state with another host's part. -/
def State.withHost (s : State) (p : HostPart) : State :=
  { s with
    regs := p.regs
    status := { s.status with err := p.err, errCode := p.errCode, pcause := p.pcause }
    out := p.out
    inputs := p.inputs
    draws := p.draws }

section
variable (s : State) (p q : HostPart)

@[simp] theorem State.withHost_host : s.withHost s.host = s := rfl
@[simp] theorem State.host_withHost : (s.withHost p).host = p := rfl
@[simp] theorem State.withHost_withHost : (s.withHost p).withHost q = s.withHost q := rfl
@[simp] theorem State.withHost_ctx : (s.withHost p).ctx = s.ctx := rfl
@[simp] theorem State.withHost_ctrl : (s.withHost p).ctrl = s.ctrl := rfl
@[simp] theorem State.withHost_dp : (s.withHost p).dp = s.dp := rfl
@[simp] theorem State.withHost_latches : (s.withHost p).latches = s.latches := rfl
@[simp] theorem State.withHost_dreg : (s.withHost p).dreg = s.dreg := rfl
@[simp] theorem State.withHost_ctxValid : (s.withHost p).status.ctxValid = s.status.ctxValid := rfl
@[simp] theorem State.withHost_dvalid : (s.withHost p).status.dvalid = s.status.dvalid := rfl
@[simp] theorem State.withHost_busy : (s.withHost p).busy = s.busy := rfl
end

/-! The engine's own updates commute with a change of the host's part. -/

section
variable (s : State) (p : HostPart)

@[simp] theorem State.withHost_byteCount : (s.withHost p).byteCount = s.byteCount := rfl
@[simp] theorem State.withHost_commandByte : (s.withHost p).commandByte = s.commandByte := rfl
@[simp] theorem State.withHost_blockSource : (s.withHost p).blockSource = s.blockSource := rfl
@[simp] theorem State.withHost_counterSource : (s.withHost p).counterSource = s.counterSource := rfl
@[simp] theorem State.withHost_withCtx (x : Context) : (s.withHost p).withCtx x = (s.withCtx x).withHost p := rfl
@[simp] theorem State.withHost_withCtrl (x : Controller) : (s.withHost p).withCtrl x = (s.withCtrl x).withHost p := rfl
@[simp] theorem State.withHost_withDp (x : Datapath) : (s.withHost p).withDp x = (s.withDp x).withHost p := rfl
@[simp] theorem goto_withHost (c : Ctl) : goto c (s.withHost p) = (goto c s).withHost p := rfl
@[simp] theorem initDone_withHost : initDone (s.withHost p) = (initDone s).withHost p := rfl
@[simp] theorem extractStep_withHost : extractStep (s.withHost p) = (extractStep s).withHost p := rfl
@[simp] theorem snapStep_withHost : snapStep (s.withHost p) = (snapStep s).withHost p := rfl

@[simp] theorem byteDone_withHost : byteDone (s.withHost p) = (byteDone s).withHost p := by
  unfold byteDone
  cases h : s.ctrl.caller <;> simp [h]

@[simp] theorem byteNext_withHost : byteNext (s.withHost p) = (byteNext s).withHost p := by
  unfold byteNext
  by_cases h : s.ctrl.k.toNat + 1 < s.byteCount <;> simp [h]

@[simp] theorem byteTail_withHost : byteTail (s.withHost p) = (byteTail s).withHost p := by
  simp [byteTail]

@[simp] theorem byteStep_withHost : byteStep (s.withHost p) = (byteStep s).withHost p := by
  unfold byteStep
  by_cases h : s.ctrl.k.toNat < s.byteCount <;> cases hf : s.ctx.full <;> simp [h, hf]

@[simp] theorem seedStep_withHost : seedStep (s.withHost p) = (seedStep s).withHost p := by
  unfold seedStep
  cases h : hasKey s.latches <;> simp [h]

@[simp] theorem loadStep_withHost : loadStep (s.withHost p) = (loadStep s).withHost p := by
  simp [loadStep]

@[simp] theorem mixStep_withHost : mixStep (s.withHost p) = (mixStep s).withHost p := by
  unfold mixStep
  by_cases hj : s.ctrl.j.val < 7 <;> by_cases hr : s.ctrl.r.val < 9 <;> simp [hj, hr]

@[simp] theorem writeHdst_withHost : writeHdst (s.withHost p) = (writeHdst s).withHost p := by
  unfold writeHdst
  cases h : s.ctrl.caller <;> simp [h]

@[simp] theorem outStep_withHost : outStep (s.withHost p) = (outStep s).withHost p := by
  unfold outStep
  cases h : (writeHdst s).ctrl.ret <;> simp [h]

/-- An engine step neither reads nor writes the host's part of the state. -/
theorem engineStep_withHost : engineStep (s.withHost p) = (engineStep s).withHost p := by
  unfold engineStep
  cases h : s.ctrl.ctl <;> simp [h]
end

theorem engineStep_host (s : State) : (engineStep s).host = s.host := by
  have h := congrArg State.host (engineStep_withHost s s.host)
  simpa using h

theorem engineRun_withHost (n : Nat) (s : State) (p : HostPart) :
    engineRun n (s.withHost p) = (engineRun n s).withHost p := by
  induction n generalizing s with
  | zero => rfl
  | succ n ih => rw [engineRun, engineRun, engineStep_withHost, ih]

@[simp] theorem engineRun_host (n : Nat) (s : State) : (engineRun n s).host = s.host := by
  have h := congrArg State.host (engineRun_withHost n s s.host)
  simpa using h

section
variable (n : Nat) (s : State)

@[simp] theorem engineRun_regs : (engineRun n s).regs = s.regs := congrArg HostPart.regs (engineRun_host n s)
@[simp] theorem engineRun_err : (engineRun n s).status.err = s.status.err := congrArg HostPart.err (engineRun_host n s)
@[simp] theorem engineRun_errCode : (engineRun n s).status.errCode = s.status.errCode :=
  congrArg HostPart.errCode (engineRun_host n s)
@[simp] theorem engineRun_pcause : (engineRun n s).status.pcause = s.status.pcause :=
  congrArg HostPart.pcause (engineRun_host n s)
@[simp] theorem engineRun_out : (engineRun n s).out = s.out := congrArg HostPart.out (engineRun_host n s)
@[simp] theorem engineRun_inputs : (engineRun n s).inputs = s.inputs := congrArg HostPart.inputs (engineRun_host n s)
@[simp] theorem engineRun_draws : (engineRun n s).draws = s.draws := congrArg HostPart.draws (engineRun_host n s)
end

/-! The engine reads the latches and never writes them. -/

@[simp] theorem byteDone_latches (s : State) : (byteDone s).latches = s.latches := by
  unfold byteDone
  cases s.ctrl.caller <;> rfl

@[simp] theorem byteNext_latches (s : State) : (byteNext s).latches = s.latches := by
  unfold byteNext
  split <;> simp

@[simp] theorem writeHdst_latches (s : State) : (writeHdst s).latches = s.latches := by
  unfold writeHdst
  cases s.ctrl.caller <;> rfl

@[simp] theorem writeHdst_ctrl (s : State) : (writeHdst s).ctrl = s.ctrl := by
  unfold writeHdst
  cases s.ctrl.caller <;> rfl

@[simp] theorem engineStep_latches (s : State) : (engineStep s).latches = s.latches := by
  unfold engineStep
  cases s.ctrl.ctl <;> dsimp only
  · unfold seedStep
    cases h : hasKey s.latches <;> simp [initDone, goto, setCtxValid, h]
  · unfold byteStep byteTail
    split
    · cases s.ctx.full <;> simp
    · simp
  · rfl
  · rfl
  · dsimp only [mixStep, goto]
    split
    · rfl
    · split <;> rfl
  · unfold outStep byteTail goto
    dsimp only
    split <;> simp
  · rfl

@[simp] theorem engineRun_latches (n : Nat) (s : State) : (engineRun n s).latches = s.latches := by
  induction n generalizing s with
  | zero => rfl
  | succ n ih => rw [engineRun, ih, engineStep_latches]

/-! BUSY, and what the byte loop leaves alone. -/

theorem busy_iff (s : State) : s.busy = true ↔ s.ctrl.ctl ≠ .idle := by simp [State.busy]

theorem busy_eq_false_iff (s : State) : s.busy = false ↔ s.ctrl.ctl = .idle := by simp [State.busy]

section
variable (s : State)

@[simp] theorem byteDone_ctx : (byteDone s).ctx = s.ctx := by unfold byteDone; cases s.ctrl.caller <;> rfl
@[simp] theorem byteDone_dp : (byteDone s).dp = s.dp := by unfold byteDone; cases s.ctrl.caller <;> rfl
@[simp] theorem byteDone_dreg : (byteDone s).dreg = s.dreg := by unfold byteDone; cases s.ctrl.caller <;> rfl
@[simp] theorem byteDone_ctl : (byteDone s).ctrl.ctl = .idle := by unfold byteDone; cases s.ctrl.caller <;> rfl
@[simp] theorem byteNext_ctx : (byteNext s).ctx = s.ctx := by unfold byteNext; split <;> simp
@[simp] theorem byteNext_dp : (byteNext s).dp = s.dp := by unfold byteNext; split <;> simp
@[simp] theorem byteNext_dreg : (byteNext s).dreg = s.dreg := by unfold byteNext; split <;> simp

/-- A command's byte sequence is no longer than the key block. -/
theorem byteCount_le : s.byteCount ≤ 64 := by
  unfold State.byteCount
  cases s.ctrl.caller
  · simp
  · show s.latches.cnt.toNat ≤ 64
    omega
  · simp

/-- After a byte the loop is at the next byte, or the command is done. -/
theorem byteNext_cases :
    (s.ctrl.k.toNat + 1 < s.byteCount ∧ (s.ctrl.k + 1).toNat = s.ctrl.k.toNat + 1 ∧
      byteNext s = s.withCtrl { s.ctrl with ctl := .byte, k := s.ctrl.k + 1 }) ∨
    byteNext s = byteDone s := by
  unfold byteNext
  split
  · rename_i h
    have := byteCount_le s
    exact .inl ⟨h, by simp; omega, rfl⟩
  · exact .inr rfl
end

/-! Runs. -/

@[simp] theorem engineRun_zero (s : State) : engineRun 0 s = s := rfl

theorem engineRun_succ (n : Nat) (s : State) : engineRun (n + 1) s = engineRun n (engineStep s) := rfl

theorem engineRun_add (m n : Nat) (s : State) : engineRun (m + n) s = engineRun n (engineRun m s) := by
  induction m generalizing s with
  | zero => simp
  | succ m ih => rw [Nat.succ_add, engineRun_succ, ih, engineRun_succ]

theorem engineRun_succ' (n : Nat) (s : State) : engineRun (n + 1) s = engineStep (engineRun n s) :=
  engineRun_add n 1 s

/-- In IDLE the engine does nothing (R287). -/
theorem engineStep_of_idle {s : State} (h : s.ctrl.ctl = .idle) : engineStep s = s := by
  unfold engineStep
  rw [h]

theorem engineRun_of_idle {s : State} (h : s.ctrl.ctl = .idle) (n : Nat) : engineRun n s = s := by
  induction n with
  | zero => rfl
  | succ n ih => rw [engineRun_succ, engineStep_of_idle h, ih]

/-- Once a command has completed, further steps change nothing. -/
theorem engineRun_of_le {s : State} {m n : Nat} (h : (engineRun m s).ctrl.ctl = .idle) (hmn : m ≤ n) :
    engineRun n s = engineRun m s := by
  obtain ⟨k, rfl⟩ := Nat.exists_eq_add_of_le hmn
  rw [engineRun_add, engineRun_of_idle h]

end Sys2Proof.Machine
end

