-- ==== Sys2Proof/Laws/Bus.lean ====
section
/-! SUPPORT. What an access can do, stated once: a supported write, a CMD write, a read; and that serving an access always
answers a next state. -/

namespace Sys2Proof.Machine

/-- Every meaning answers a next state. -/
theorem exec_next (i : Instr) (s : State) : ∃ t, exec i s = .next t := by
  cases i <;> exact ⟨_, rfl⟩

/-- While BUSY = 1 every instruction is BUSY_CMD (R276). -/
theorem exec_of_busy {s : State} (h : s.busy = true) (i : Instr) : exec i s = .next (raiseError .busyCmd 0 s) := by
  cases i <;> simp [exec, execNop, execInit, execAbsorb, execDigest, accepting_of_busy h]

theorem present_of_busy {s : State} (h : s.busy = true) (w : Word) :
    present w s = .next (raiseError .busyCmd 0 s) := by
  simp [present, h]

/-- A word that decodes runs its instruction, whose own first check is BUSY again. -/
theorem present_of_instr {w : Word} {i : Instr} (h : decode w = .instr i) (s : State) : present w s = exec i s := by
  cases hb : s.busy
  · simp [present, hb, h]
  · rw [present_of_busy hb, exec_of_busy hb]

theorem present_of_rejected {w : Word} {why : Rejection} (h : decode w = .rejected why) {s : State}
    (hb : s.busy = false) : present w s = .next (raiseError .illegalCmd 0 s) := by
  simp [present, hb, h]

theorem present_next (w : Word) (s : State) : ∃ t, present w s = .next t := by
  cases hd : decode w with
  | instr i => rw [present_of_instr hd]; exact exec_next i s
  | rejected why =>
    cases hb : s.busy
    · exact ⟨_, present_of_rejected hd hb⟩
    · exact ⟨_, present_of_busy hb w⟩

theorem writeReg_next (reg : Reg) (w : Word) (s : State) : ∃ t, writeReg reg w s = .next t := by
  cases reg with
  | cmd => exact present_next w s
  | _ => exact ⟨_, rfl⟩

/-- A write access of the supported form. -/
theorem serve_write {off : BitVec 8} (h : off.toNat % 4 = 0) (w : Word) (s : State) :
    serve (Cycle.write off w) s = writeReg (regAt off) w (s.withOut { ready := true, rdata := none }) := by
  simp [serve, serveWrite, Cycle.write, Cycle.supported, h]

/-- A CMD write presents its word. -/
theorem serve_cmd (w : Word) (s : State) :
    serve (Cycle.write 0x00 w) s = present w (s.withOut { ready := true, rdata := none }) := by
  rw [serve_write (by decide)]
  rfl

/-- A read access of the supported form. -/
theorem serve_read {off : BitVec 8} (h : off.toNat % 4 = 0) (s : State) :
    serve (Cycle.read off) s =
      .next ((bif readDraws (regAt off) s then s.withDraws (s.draws + 1) else s).withOut
        { ready := true, rdata := some (readReg (regAt off) s) }) := by
  simp [serve, serveRead, Cycle.read, Cycle.supported, h]

theorem serve_read_misaligned {off : BitVec 8} (h : off.toNat % 4 ≠ 0) (s : State) :
    serve (Cycle.read off) s = .next (s.withOut { ready := true, rdata := some 0 }) := by
  simp [serve, serveRead, Cycle.read, Cycle.supported, h]

/-- Serving an access answers a next state, whatever the access. -/
theorem serve_next (c : Cycle) (s : State) : ∃ t, serve c s = .next t := by
  cases hs : c.sel <;> cases hw : c.we <;> cases hp : c.supported <;> simp [serve, serveWrite, hs, hw, hp]
  exact writeReg_next _ _ _

/-- The access of a cycle is served, and the engine then runs its steps if it was busy. -/
theorem cycle_of_running {c : Cycle} (h : c.rst = false) (s : State) :
    cycle c s = onNext (serve c s) (fun t => bif s.busy then engineRun c.engineSteps t else t) := by
  simp [cycle, h]

theorem cycle_of_reset {c : Cycle} (h : c.rst = true) (s : State) : cycle c s = .next (resetEdge c s) := by
  simp [cycle, h]

end Sys2Proof.Machine
end

