-- ==== Sys2Proof/Laws/Commands.lean ====
section
/-! SUPPORT. The acceptance of each command: the state `exec` answers when its checks pass, and, for INIT, when the
parameters are refused. -/

namespace Sys2Proof.Machine

theorem exec_init_accepted {s : State} (hb : s.busy = false) (hp : paramOK s.regs.param = true) :
    exec .init s =
      .next ((setCtxValid false (clearDvalid (latchInit s))).withCtrl { s.ctrl with ctl := .iSeed, caller := .init }) := by
  show Host.Outcome.next _ = _
  rw [accepting_of_ok hb rfl (by simp), acceptInit]
  have : paramOK (setCtxValid false (clearDvalid (latchInit s))).latches.param = true := hp
  rw [this]
  rfl

theorem exec_init_refused {s : State} (hb : s.busy = false) (hp : paramOK s.regs.param = false) :
    exec .init s =
      .next (raiseError .param (pcauseOf s.regs.param) (setCtxValid false (clearDvalid (latchInit s)))) := by
  show Host.Outcome.next _ = _
  rw [accepting_of_ok hb rfl (by simp), acceptInit]
  have : paramOK (setCtxValid false (clearDvalid (latchInit s))).latches.param = false := hp
  rw [this]
  rfl

theorem exec_absorb_accepted {s : State} (hb : s.busy = false) (hc : s.status.ctxValid = true) {cnt : BitVec 3} (h : cnt.toNat ≤ 4) :
    exec (.absorb cnt) s =
      .next ((clearDvalid (latchAbsorb cnt s)).withCtrl { s.ctrl with ctl := .byte, k := 0, caller := .absorb }) := by
  show Host.Outcome.next _ = _
  rw [accepting_of_ok hb (by simpa using h) (fun _ => hc)]
  rfl

theorem exec_digest_accepted {s : State} (hb : s.busy = false) (hc : s.status.ctxValid = true) :
    exec .digest s = .next (goto .dSnap (clearDvalid s)) := by
  show Host.Outcome.next _ = _
  rw [accepting_of_ok hb rfl (fun _ => hc)]
  rfl

/-- `runCommand` on the state `exec` answers. -/
theorem runCommand_of_exec {i : Instr} {s t : State} (h : exec i s = .next t) :
    runCommand i s = engineRun (commandSteps i s) t := by
  rw [runCommand, h]

end Sys2Proof.Machine
end

