-- ==== Sys2Proof/Laws/Operands.lean ====
section
/-! SUPPORT. The bits of a packed word, from which the byte-order facts follow. -/

namespace Sys2Proof.Machine

/-- Bit `i` of `LE32(b0,b1,b2,b3)` (R13). -/
theorem getLsbD_le32 (b0 b1 b2 b3 : Byte) {i : Nat} (hi : i < 32) :
    (le32 b0 b1 b2 b3).getLsbD i =
      if i < 8 then b0.getLsbD i
      else if i < 16 then b1.getLsbD (i - 8)
      else if i < 24 then b2.getLsbD (i - 16)
      else b3.getLsbD (i - 24) := by
  have z : ∀ (b : Byte) k, 8 ≤ k → b.getLsbD k = false := fun b k h => BitVec.getLsbD_of_ge b k h
  simp only [le32, BitVec.getLsbD_or, BitVec.getLsbD_shiftLeft, BitVec.getLsbD_setWidth]
  by_cases h1 : i < 8
  · simp [h1, show i < 16 by omega, show i < 24 by omega, hi]
  · by_cases h2 : i < 16
    · simp [h1, h2, show i < 24 by omega, hi, z b0 i (by omega)]; omega
    · by_cases h3 : i < 24
      · simp [h1, h2, h3, hi, z b0 i (by omega), z b1 (i - 8) (by omega)]; omega
      · simp [h1, h2, h3, hi, z b0 i (by omega), z b1 (i - 8) (by omega), z b2 (i - 16) (by omega)]; omega

end Sys2Proof.Machine
end

