-- ==== Sys2Proof/Laws/PerInstr.lean ====
section
/-! SUPPORT. Statements made once for every instruction. EncodedFields: the fields of an instruction's command word are
those of the format (R91 to R93). -/

namespace Sys2Proof.Laws.EncodedFields

/-- The reserved field of the command word is 0, CNT is the instruction's count and OP its code. -/
def Statement (i : Instr) : Prop :=
  rsvField (encode i) = 0 ∧ cntField (encode i) = cntCode i ∧ opField (encode i) = opCode i

theorem nop : Statement .nop := by unfold Statement; decide

theorem init : Statement .init := by unfold Statement; decide

theorem absorb (cnt : BitVec 3) : Statement (.absorb cnt) := by revert cnt; unfold Statement; decide

theorem digest : Statement .digest := by unfold Statement; decide

end Sys2Proof.Laws.EncodedFields
end

