-- ==== Sys2Proof/Laws/Safety.lean ====
section
/-! SUPPORT. The terms of Safety.lean: what a read of an offset returns. -/

namespace Sys2Proof.Machine

/-- A read returns the register at its offset, and 0 at a misaligned one. -/
theorem reads_iff (s : State) (off : BitVec 8) (w : Word) :
    s.Reads off w ↔ (if off.toNat % 4 = 0 then readReg (regAt off) s else 0) = w := by
  by_cases h : off.toNat % 4 = 0
  · simp [State.Reads, serve_read h, h]
  · simp [State.Reads, serve_read_misaligned h, h]

end Sys2Proof.Machine
end

