-- ==== Sys2Proof/Laws/Streaming.lean ====
section
/-! SUPPORT. What absorbing a byte does, in its two cases (R191), and how absorptions compose. -/

namespace Sys2Proof.Machine

theorem Context.full_iff (c : Context) : c.full = true ↔ c.bufIdx.toNat = 64 := by
  rw [Context.full, beq_iff_eq]
  exact ⟨fun h => by rw [h]; rfl, fun h => BitVec.eq_of_toNat_eq h⟩

theorem Context.full_of_lt {c : Context} (h : c.bufIdx.toNat < 64) : c.full = false := by
  cases hf : c.full
  · rfl
  · have := (full_iff c).1 hf
    omega

/-- With room in the buffer, the byte is stored and counted. -/
theorem absorbByte_of_room {c : Context} (h : c.bufIdx.toNat < 64) (b : Byte) :
    absorbByte c b = { c with buf := c.buf.set c.bufIdx.toNat b h, bufIdx := c.bufIdx + 1 } := by
  rw [absorbByte, Context.full_of_lt h]
  simp only [cond_false, storeByte]
  congr 1
  apply Vector.ext
  intro i hi
  simp [Vector.getElem_setIfInBounds, Vector.getElem_set]

/-- With a full buffer, the block is compressed first, the counter advanced past it, and the byte starts the next. -/
theorem absorbByte_of_full {c : Context} (h : c.bufIdx.toNat = 64) (b : Byte) :
    absorbByte c b =
      { c with h := compress c.h c.buf (c.t + 64) false, t := c.t + 64, buf := c.buf.set 0 b, bufIdx := 1 } := by
  rw [absorbByte, (Context.full_iff c).2 h]
  simp only [cond_true, storeByte, advanceCounter]
  have : c.buf.setIfInBounds (0 : BitVec 7).toNat b = c.buf.set 0 b := by
    apply Vector.ext
    intro i hi
    simp [Vector.getElem_setIfInBounds, Vector.getElem_set]
  rw [this]
  rfl

@[simp] theorem absorbByte_ds (c : Context) (b : Byte) : (absorbByte c b).ds = c.ds := by
  unfold absorbByte
  cases c.full <;> rfl

/-- The fill count after a byte. -/
theorem absorbByte_bufIdx {c : Context} (h : c.bufIdx.toNat ≤ 64) (b : Byte) :
    (absorbByte c b).bufIdx.toNat = if c.bufIdx.toNat = 64 then 1 else c.bufIdx.toNat + 1 := by
  split
  · rw [absorbByte_of_full ‹_›]
    rfl
  · rw [absorbByte_of_room (by omega)]
    show (c.bufIdx + 1).toNat = _
    rw [BitVec.toNat_add]
    show (c.bufIdx.toNat + 1) % 128 = _
    omega

@[simp] theorem absorbBytes_nil (c : Context) : absorbBytes [] c = c := rfl

@[simp] theorem absorbBytes_cons (b : Byte) (bs : List Byte) (c : Context) :
    absorbBytes (b :: bs) c = absorbBytes bs (absorbByte c b) := rfl

theorem absorbBytes_append (bs cs : List Byte) (c : Context) :
    absorbBytes (bs ++ cs) c = absorbBytes cs (absorbBytes bs c) := by
  simp [absorbBytes]

@[simp] theorem absorbBytes_ds (bs : List Byte) (c : Context) : (absorbBytes bs c).ds = c.ds := by
  induction bs generalizing c with
  | nil => rfl
  | cons b bs ih => simp [ih]

/-- Absorbing keeps the fill count in its range (R26). -/
theorem absorbBytes_bufIdx_le (bs : List Byte) {c : Context} (h : c.bufIdx.toNat ≤ 64) :
    (absorbBytes bs c).bufIdx.toNat ≤ 64 := by
  induction bs generalizing c with
  | nil => exact h
  | cons b bs ih =>
    rw [absorbBytes_cons]
    apply ih
    rw [absorbByte_bufIdx h]
    split <;> omega

end Sys2Proof.Machine
end

