-- ==== Sys2Proof/Tests/Slice0.lean ====
section
/-! SUPPORT. The model's own tests. Every expected value is the spec's: a worked example of a rule, or a vector of
95_test_vectors.md. The last part shows, for every statement with hypotheses, that they can be met. -/

namespace Sys2Proof.Tests

open Sys2Proof Sys2Proof.Machine

/-! ## Instruction terms and words -/

/-- R93, R95: ABSORB with CNT in 5..7 is no legal command. -/
theorem test_count_5_is_ill_formed : (Instr.absorb 5).wellFormed = false := by decide
theorem test_count_6_is_ill_formed : (Instr.absorb 6).wellFormed = false := by decide
theorem test_count_7_is_ill_formed : (Instr.absorb 7).wellFormed = false := by decide
theorem test_count_4_is_well_formed : (Instr.absorb 4).wellFormed = true := by decide

/-- R91: RSV, CNT, OP written out from bit 31 down. -/
theorem test_decode_nop : decode (0b0000000000000000000000000_000_0000 : Word) = .instr .nop := by decide
theorem test_decode_init : decode (0b0000000000000000000000000_000_0001 : Word) = .instr .init := by decide
/-- R100: ABSORB 3. -/
theorem test_decode_absorb : decode (0b0000000000000000000000000_011_0010 : Word) = .instr (.absorb 3) := by decide
theorem test_decode_digest : decode (0b0000000000000000000000000_000_0011 : Word) = .instr .digest := by decide
/-- R96: the illegal examples. -/
theorem test_decode_illegal_words :
    decode 0x00000004 = .rejected .reservedOp ∧ decode 0x00000052 = .rejected .countTooLarge ∧
      decode 0x00000013 = .rejected .countNotZero ∧ decode 0x00000080 = .rejected .reservedBits ∧
      decode 0x80000001 = .rejected .reservedBits := by decide
/-- The table's row of ABSORB with its letters at 4 and at 5. -/
theorem test_decode_table_word :
    decodeTableWord 32 0x42 = some (.absorb 4) ∧ decodeTableWord 32 0x52 = none := by decide

/-! ## The algorithm's parts -/

/-- RO1, RO5, RO6. -/
theorem test_rotr :
    rotr 0x00000001 16 = 0x00010000 ∧ rotr 0x80000000 7 = 0x01000000 ∧ rotr 0x12345678 16 = 0x56781234 := by decide

/-- The working vector with words 0, 4, 8 and 12 given and the others 0. -/
def column (a b c d : Word) : Vector Word 16 :=
  ((((Vector.replicate 16 0).set 0 a).set 4 b).set 8 c).set 12 d

/-- G2. -/
theorem test_mix_one :
    mixG 0 4 8 12 1 0 (column 0 0 0 0) = column 0x00000011 0x20220202 0x11010100 0x11000100 := by decide
/-- G4. -/
theorem test_mix_carries :
    mixG 0 4 8 12 0xFFFFFFFF 0xFFFFFFFF (column 0xFFFFFFFF 0xFFFFFFFF 0xFFFFFFFF 0xFFFFFFFF) =
      column 0x000FFFDC 0x3DB81BE4 0xDC020DFE 0xDC000DFF := by decide
/-- G5. -/
theorem test_mix_mixed :
    mixG 0 4 8 12 0x12345678 0x9ABCDEF0 (column 0 0x44444444 0x88888888 0xCCCCCCCC) =
      column 0x68BF2582 0x5AC57CB2 0x1537F2FB 0x363ECFBF := by decide

/-- B4: DS = 1, KL = 5, salt "saltsalt", personalization "pers". -/
theorem test_param_words :
    (paramWords 0x04080501 #v[0x746C6173, 0x746C6173] #v[0x73726570, 0xFFFFFFFF]).toList.take 8 =
      [0x01010501, 0, 0, 0, 0x746C6173, 0x746C6173, 0x73726570, 0] := by decide
/-- T7: the bytes past SL and PL are ignored (S16's block). -/
theorem test_param_words_ignore_the_rest :
    (paramWords 0x01020000 #v[0xFFFF6261, 0xFFFFFFFF] #v[0xFFFFFF70, 0x12345678]).toList.take 8 =
      [0x01010020, 0, 0, 0, 0x00006261, 0, 0x00000070, 0] := by decide
/-- R129, X5: all four causes at once; and none. -/
theorem test_pcause : pcauseOf 0x09092121 = 0b1111 ∧ pcauseOf 0x00002100 = 0b0100 ∧ pcauseOf 0x08082020 = 0 := by decide

/-- `h0` of B1. -/
def seed32 : Vector Word 8 :=
  #v[0x6B08E647, 0xBB67AE85, 0x3C6EF372, 0xA54FF53A, 0x510E527F, 0x9B05688C, 0x1F83D9AB, 0x5BE0CD19]

/-- The block of bytes 00..3f. -/
def countingBlock : Block := Vector.ofFn fun i => BitVec.ofNat 8 i.val

/-- K1. -/
theorem test_compress_final :
    compress seed32 (Vector.replicate 64 0) 0 true =
      #v[0x307A2169, 0x94809079, 0xD02111E1, 0x7C4A3542, 0x48B6551F, 0x1EA5A12C, 0xFD0D251B, 0xF9EED01E] := by
  decide +kernel
/-- K4. -/
theorem test_compress_non_final :
    compress seed32 countingBlock 0x40 false =
      #v[0x69B86EDC, 0x9C74BB75, 0x25BD102E, 0x83F24029, 0x9A9D32C1, 0xA02250BB, 0x3AA0A774, 0xE4B93E1D] := by
  decide +kernel
/-- K5: the high counter word. -/
theorem test_compress_high_counter :
    compress seed32 countingBlock 0x100000000 true =
      #v[0x31928BE5, 0x04DF9FB1, 0xFE989C41, 0x4F99C94E, 0x00D721E0, 0xDB1FBDC7, 0x08FA0CAA, 0x04DFECB6] := by
  decide +kernel
/-- K1, round 0. -/
theorem test_round_0 :
    (mixRound (Vector.replicate 16 0) 0 (initVector seed32 0 true)).toList.take 4 =
      [0x82A01B5D, 0x248BD8F5, 0x1DA4B59A, 0xB37B2BD3] := by decide

/-- S5, R238: the digest of "abc" at 16 bytes. -/
theorem test_digest_truncated :
    (digestBytes (finalState (absorbBytes [0x61, 0x62, 0x63] (initContext (createLatches [] [] [] 16) State.reset.ctx)))
      16).toList =
      [0xAA, 0x49, 0x38, 0x11, 0x9B, 0x1D, 0xC7, 0xB8, 0x7C, 0xBA, 0xD0, 0xFF, 0xD2, 0x00, 0xD0, 0xAE] ++
        List.replicate 16 0 := by decide +kernel
/-- S17: key "key", salt "salt", personalization "me", 20 bytes, message "abc". -/
theorem test_digest_every_parameter :
    ((digestBytes (finalState (absorbBytes [0x61, 0x62, 0x63] (initContext
      (createLatches [0x6B, 0x65, 0x79] [0x73, 0x61, 0x6C, 0x74] [0x6D, 0x65] 20) State.reset.ctx))) 20).toList.take 20) =
      [0x9B, 0xEF, 0xD4, 0x49, 0x0A, 0x26, 0xFB, 0x5C, 0x0B, 0x5C, 0x42, 0x17, 0x77, 0xA1, 0xB3, 0x80, 0x10, 0xF5, 0x71,
        0xBC] := by decide +kernel
/-- R237: the start of S1's digest. -/
theorem test_hex : digestHex [0xF8, 0xE9, 0x01] = ['f', '8', 'e', '9', '0', '1'] := by decide

/-! ## Small states -/

/-- After reset. -/
abbrev rest : State := State.reset

/-- A valid 32-byte context with `n` bytes pending, at rest. -/
def ready (n : BitVec 7) : State :=
  (rest.withCtx { rest.ctx with bufIdx := n, ds := 32 }).withStatus { rest.status with ctxValid := true }

/-- An engine that has just accepted ABSORB 1. -/
def running : State :=
  ((ready 3).withCtrl { rest.ctrl with ctl := .byte, caller := .absorb }).withLatches { rest.latches with cnt := 1 }

/-- An engine at rest with a digest. -/
def withDigest : State := (ready 3).withStatus { rest.status with ctxValid := true, dvalid := true }

/-- An engine whose PARAM has invalid values (X5). -/
def badParam : State := rest.withRegs { rest.regs with param := 0x09092121 }

/-- An engine with a recorded error. -/
def errored : State := rest.withStatus { rest.status with err := true, errCode := .noContext }

/-- An engine in the first step of a compression, of ABSORB and of DIGEST. -/
def compressingFor (caller : Caller) (ret : Ret) (fin : Bool) : State :=
  (((ready 64).withCtrl { rest.ctrl with ctl := .cLoad, caller := caller, ret := ret }).withDp
    { rest.dp with fin := fin }).withLatches { rest.latches with cnt := 1 }

/-- The state `exec` answers. -/
def acceptedState (i : Instr) (s : State) : State :=
  match exec i s with
  | .next t => t
  | .fault _ => s
  | .refused _ => s

/-! ## Instructions -/

/-- R256: after reset NOP leaves STATUS = 0. -/
theorem test_nop : (acceptedState .nop rest).statusWord = 0x00000000 := by decide
/-- R288, the BUSY row: any command while BUSY = 1 is code 4. -/
theorem test_nop_while_busy : (acceptedState .nop running).status.errCode = .busyCmd := by decide
/-- R215, R288: X5. -/
theorem test_init_bad_parameters : (acceptedState .init badParam).statusWord = 0x0000F108 := by decide
/-- R215: PARAM = 0 seeds in one step; STATUS = 2 and h[0] = 0x6B08E647. -/
theorem test_init_seeds :
    (engineStep (acceptedState .init rest)).statusWord = 0x00000002 ∧
      (engineStep (acceptedState .init rest)).ctx.h[0] = 0x6B08E647 := by decide
/-- R195: DATA = 0x00636261, ABSORB 3: the first step stores 0x61. -/
theorem test_absorb_first_byte :
    (engineStep (acceptedState (.absorb 3) ((ready 0).withRegs { rest.regs with data := 0x00636261 }))).ctx.buf[0] = 0x61 := by
  decide
/-- X7: ABSORB without a context. -/
theorem test_absorb_no_context : (acceptedState (.absorb 1) rest).statusWord = 0x00000308 := by decide
/-- R231, CT4: the snapshot counter of DIGEST adds the pending bytes, and `t` is unchanged. -/
theorem test_digest_snapshot :
    (engineStep (acceptedState .digest ((ready 1).withCtx { (ready 1).ctx with t := 0xFFFFFFC0 }))).dp.ts = 0xFFFFFFC1 ∧
      (engineStep (acceptedState .digest ((ready 1).withCtx { (ready 1).ctx with t := 0xFFFFFFC0 }))).ctx.t =
        0xFFFFFFC0 := by decide
/-- X6: DIGEST without a context. -/
theorem test_digest_no_context : (acceptedState .digest rest).statusWord = 0x00000308 := by decide

/-! ## The bus, one cycle each -/

/-- The state after one step. -/
def next (s : State) : State :=
  match step s with
  | .next t => t
  | .fault _ => s
  | .refused _ => s

/-- X10: an illegal word. -/
theorem test_step_illegal_word : (next (rest.withFetchWord 32 0x80)).statusWord = 0x00000208 := by decide
/-- A word placed by `withFetchWord` runs, and is used up. -/
theorem test_step_runs_init :
    (next (rest.withFetchWord 32 0x1)).ctrl.ctl = .iSeed ∧ (next (rest.withFetchWord 32 0x1)).inputs = [] := by decide
/-- X14: CLRERR. -/
theorem test_clear_error : (next (errored.withInputs [Cycle.write 0x04 0x8])).statusWord = 0 := by decide
/-- R-1: PARAM reads back, KEY0 reads 0. -/
theorem test_read_back :
    (next (badParam.withInputs [Cycle.read 0x08])).out.rdata = some 0x09092121 ∧
      (next ((rest.withRegs { rest.regs with key := Vector.replicate 8 0x11223344 }).withInputs
        [Cycle.read 0x20])).out.rdata = some 0 := by decide
/-- R-2: a partial write changes nothing. -/
theorem test_partial_write :
    (next (rest.withInputs [{ Cycle.write 0x08 0x5 with be := 0b0011 }])).regs = rest.regs := by decide
/-- N5: DIGEST0 reads 0 while DVALID = 0. -/
theorem test_masked_digest :
    (next (((ready 3).withDreg (Vector.replicate 8 1)).withInputs [Cycle.read 0x40])).out.rdata = some 0 ∧
      (next ((withDigest.withDreg (Vector.replicate 8 1)).withInputs [Cycle.read 0x40])).out.rdata = some 1 := by decide

/-! ## Witnesses: the hypotheses of each statement can be met -/

theorem inv_rest : rest.Inv :=
  ⟨by decide, by decide, by decide, by decide, by decide, by decide, by decide, by decide, by decide⟩
theorem inv_ready : (ready 64).Inv :=
  ⟨by decide, by decide, by decide, by decide, by decide, by decide, by decide, by decide, by decide⟩
theorem inv_running : running.Inv :=
  ⟨by decide, by decide, by decide, by decide, by decide, by decide, by decide, by decide, by decide⟩

theorem witness_IllegalWordsAreRefused : rest.busy = false ∧ ¬ LegalWord 0x00000052 := by decide
theorem witness_DecodeAndEncodeAreInverse :
    (Instr.absorb 4).wellFormed = true ∧ decode 0x00000042 = .instr (.absorb 4) := by decide
theorem witness_StepRunsDecodedCommand :
    (rest.withInputs [Cycle.write 0x00 0x00000001]).inputs = Cycle.write 0x00 0x00000001 :: [] ∧
      (Cycle.write 0x00 0x00000001).rst = false ∧ (Cycle.write 0x00 0x00000001).sel = true ∧
      (Cycle.write 0x00 0x00000001).we = true ∧ (Cycle.write 0x00 0x00000001).addr = 0x00 ∧
      (Cycle.write 0x00 0x00000001).be = 0xF ∧ decode (Cycle.write 0x00 0x00000001).wdata = .instr .init ∧
      rest.busy = false ∧ decodeTableWord 32 0x1 = some .init := by decide
theorem witness_ResetEdge :
    ∃ c : Cycle, (running.withInputs [c]).inputs = c :: [] ∧ c.rst = true ∧ c.sel = true ∧ c.we = false :=
  ⟨{ Cycle.read 0x04 with rst := true }, by decide⟩
/-- The first and the last of the offsets, and another one that reads something. -/
theorem witness_OperandRegistersReadBack :
    (0x08 : BitVec 8) ∈ ([0x08, 0x0C, 0x10, 0x14, 0x18, 0x1C] : List (BitVec 8)) ∧
      (0x1C : BitVec 8) ∈ ([0x08, 0x0C, 0x10, 0x14, 0x18, 0x1C] : List (BitVec 8)) ∧ (0x0C : BitVec 8) ≠ 0x08 ∧
      rest.Reads 0x0C 0 :=
  ⟨by decide, by decide, by decide, _, rfl, rfl⟩
theorem witness_CounterReadsAreConsistent :
    ((ready 0).withInputs [Cycle.read 0x60, Cycle.read 0x64]).inputs = Cycle.read 0x60 :: Cycle.read 0x64 :: [] ∧
      (ready 0).busy = false ∧ (ready 0).status.ctxValid = true ∧ rest.busy = false ∧ rest.status.ctxValid = false := by
  decide
/-- Without a context, with one at rest (64 bytes pending), and with one while a command runs. -/
theorem witness_StatusReadsItsFields :
    rest.Inv ∧ rest.status.ctxValid = false ∧ (ready 64).Inv ∧ (ready 64).status.ctxValid = true ∧
      (ready 64).busy = false ∧ running.Inv ∧ running.busy = true :=
  ⟨inv_rest, by decide, inv_ready, by decide, by decide, inv_running, by decide⟩
theorem witness_StatusWriteClearsTheError :
    (0x00000008 : Word).getLsbD 3 = true ∧ (0xFFFFFFF7 : Word).getLsbD 3 = false := by decide
/-- The first and the last reserved offset. -/
theorem witness_ReservedOffsetsDoNothing :
    0x68 ≤ (0x68 : BitVec 8).toNat ∧ (0x68 : BitVec 8).toNat % 4 = 0 ∧ 0x68 ≤ (0xFC : BitVec 8).toNat ∧
      (0xFC : BitVec 8).toNat % 4 = 0 := by decide
theorem witness_UnsupportedAccessesDoNothing :
    ∃ c d : Cycle, c.sel = true ∧ c.addr.toNat % 4 ≠ 0 ∧ d.sel = true ∧ d.be ≠ 0xF :=
  ⟨Cycle.read 0x0A, { Cycle.read 0x08 with be := 0b0011 }, by decide⟩
/-- A read of STATUS at rest, and, while ABSORB runs, one of PARAM, a partial one of STATUS, and two of STATUS. -/
theorem witness_OnlyTwoWritesHaveSideEffects :
    (Cycle.read 0x04).sel = true ∧ (Cycle.read 0x04).we = false ∧ rest.busy = false ∧
      (running.busy = true ∧ running.status.ctxValid = true ∧ (Cycle.read 0x08).addr ∉ [0x04, 0x60, 0x64] ∧
        ({ Cycle.read 0x04 with be := 0b0011 } : Cycle).be ≠ 0xF) ∧
      (∃ t w w', serve (Cycle.read 0x04) running = .next t ∧ running.Reads 0x04 w ∧ t.Reads 0x04 w') ∧
      (Cycle.write 0x04 0x8).sel = true ∧ (Cycle.write 0x04 0x8).we = true ∧ (Cycle.write 0x04 0x8).addr ≠ 0x00 ∧
      (Cycle.write 0x08 0x8).addr ≠ 0x04 :=
  ⟨by decide, by decide, by decide, by decide, ⟨_, _, _, serve_read (by decide) _, ⟨_, serve_read (by decide) _, rfl⟩, _,
    serve_read (by decide) _, rfl⟩, by decide, by decide, by decide, by decide⟩
/-- The address next after the window. -/
theorem witness_WindowSelectsTheEngine :
    ∃ a : HostAccess, a.addr < Config.base ∨ Config.base + 0x100 ≤ a.addr :=
  ⟨{ addr := Config.base + 0x100, we := true, be := 0xF, wdata := 0 }, .inr (Nat.le_refl _)⟩
theorem witness_RestKeepsTheContext :
    (ready 3).busy = false ∧ (Cycle.write 0x08 0x5).rst = false ∧ (Cycle.write 0x08 0x5).addr ≠ 0x00 ∧
      ∃ t, cycle (Cycle.write 0x08 0x5) (ready 3) = .next t := ⟨by decide, by decide, by decide, _, rfl⟩
theorem witness_BusyCommandsAreRefused : running.busy = true := by decide
theorem witness_CommandsNeedAContext :
    rest.busy = false ∧ rest.status.ctxValid = false ∧ LegalWord 0x00000012 ∧ NeedsContext 0x00000012 ∧
      LegalWord 0x00000003 ∧ NeedsContext 0x00000003 := by decide
/-- With an error recorded; and without one, each of the five cases. -/
theorem witness_OneErrorInPriorityOrder :
    errored.status.err = true ∧ rest.status.err = false ∧ running.busy = true ∧ ¬ LegalWord 0x00000004 ∧
      (NeedsContext 0x00000003 ∧ rest.status.ctxValid = false) ∧
      ((0x00000001 : Word).extractLsb' 0 4 = 0x1 ∧ pcauseOf badParam.regs.param ≠ 0) ∧
      (LegalWord 0x00000000 ∧ ¬ NeedsContext 0x00000000) := by decide
theorem witness_ErrorsArePrecise :
    (∃ t, serve (Cycle.write 0x00 0x00000003) running = .next t ∧ running.busy = true) ∧
      (∃ t, serve (Cycle.write 0x00 0x00000004) rest = .next t ∧ ¬ LegalWord 0x00000004) ∧
      (∃ t, serve (Cycle.write 0x00 0x00000003) rest = .next t ∧ NeedsContext 0x00000003 ∧
        rest.status.ctxValid = false) ∧
      ∃ t, serve (Cycle.write 0x00 0x00000001) badParam = .next t ∧ badParam.busy = false ∧
        paramOK badParam.regs.param = false :=
  ⟨⟨_, rfl, by decide⟩, ⟨_, rfl, by decide⟩, ⟨_, rfl, by decide⟩, ⟨_, rfl, by decide⟩⟩
/-- Each constraint violated alone, at the first value past its bound. -/
theorem witness_BadParametersAreRefused :
    badParam.busy = false ∧ 32 < (dsField 0x00000021).toNat ∧ 32 < (klField 0x00002100).toNat ∧
      8 < (slField 0x00090000).toNat ∧ 8 < (plField 0x09000000).toNat ∧ badParam.status.err = false ∧
      errored.status.err = true := by decide
theorem witness_NopChangesNothing : rest.busy = false ∧ running.busy = true := by decide
/-- Every parameter at its bound, with a key and (PARAM = 0) without. -/
theorem witness_InitBuildsTheContext :
    rest.busy = false ∧ ((dsField 0x08082020).toNat ≤ 32 ∧ (klField 0x08082020).toNat ≤ 32 ∧
      (slField 0x08082020).toNat ≤ 8 ∧ (plField 0x08082020).toNat ≤ 8 ∧ klField 0x08082020 ≠ 0) ∧
      klField rest.regs.param = 0 ∧ dsField rest.regs.param = 0 := by decide
theorem witness_AbsorbAbsorbsItsBytes :
    (ready 64).busy = false ∧ (ready 64).status.ctxValid = true ∧ (4 : BitVec 3).toNat ≤ 4 ∧
      (ready 64).ctx.bufIdx.toNat ≤ 64 ∧ 4 < (5 : BitVec 3).toNat := by decide
theorem witness_AbsorbOfNothing : (ready 0).busy = false ∧ (ready 0).status.ctxValid = true := by decide
theorem witness_DigestExtractsTheDigest : (ready 3).busy = false ∧ (ready 3).status.ctxValid = true := by decide
theorem witness_DigestDoesNotMutate :
    (ready 3).busy = false ∧ (ready 3).status.ctxValid = true ∧ ∃ t, exec .digest (ready 3) = .next t :=
  ⟨by decide, by decide, _, rfl⟩
theorem witness_AcceptanceFrame : ∃ t, exec .init rest = .next t := ⟨_, rfl⟩
theorem witness_OperandsAreLatched :
    (ready 64).busy = false ∧ (ready 64).status.ctxValid = true ∧ (4 : BitVec 3).toNat ≤ 4 := by decide
theorem witness_CommandWriteTable :
    badParam.busy = false ∧ paramOK badParam.regs.param = false ∧ paramOK rest.regs.param = true ∧
      (ready 64).busy = false ∧ (ready 64).status.ctxValid = true ∧ (4 : BitVec 3).toNat ≤ 4 ∧
      (ready 64).ctx.bufIdx.toNat ≤ 64 ∧ (∃ t, present 0x00000001 running = .next t ∧ running.busy = true) ∧
      (∃ t, present 0x00000004 rest = .next t ∧ ¬ LegalWord 0x00000004) ∧
      ∃ t, present 0x00000012 rest = .next t ∧ NeedsContext 0x00000012 ∧ rest.status.ctxValid = false :=
  ⟨by decide, by decide, by decide, by decide, by decide, by decide, by decide, ⟨_, rfl, by decide⟩,
    ⟨_, rfl, by decide⟩, ⟨_, rfl, by decide⟩⟩
theorem witness_ControllerRefinesCommandLevel : (ready 64).busy = false ∧ (ready 64).ctx.bufIdx.toNat ≤ 64 := by decide
theorem witness_EveryCommandCompletes :
    (ready 64).busy = false ∧ (ready 64).ctx.bufIdx.toNat ≤ 64 ∧
      ∃ t, exec (.absorb 1) (ready 64) = .next t ∧ t.busy = true := ⟨by decide, by decide, _, rfl, rfl⟩
theorem witness_RunningCommandIsUndisturbed :
    running.busy = true ∧ (Cycle.write 0x00 0x00000003).rst = false ∧
      ∃ t, cycle (Cycle.write 0x00 0x00000003) running = .next t := ⟨by decide, by decide, _, rfl⟩
/-- A step after which the command still runs, and one that completes it. -/
theorem witness_BusyShowsWhatAcceptanceLeft :
    running.Inv ∧ running.busy = true ∧ (engineStep (compressingFor .absorb .byteTail false)).busy = true :=
  ⟨inv_running, by decide, by decide⟩
theorem witness_DigestRepeatsAndIsTransparent :
    (ready 3).busy = false ∧ (ready 3).status.ctxValid = true ∧
      (∃ t : State, t.busy = false ∧ t.status.ctxValid = true ∧ t.ctx = (runCommand .digest (ready 3)).ctx) ∧
      (4 : BitVec 3).toNat ≤ 4 ∧ (ready 64).ctx.bufIdx.toNat ≤ 64 :=
  ⟨by decide, by decide, ⟨(ready 3).withCtx (runCommand .digest (ready 3)).ctx,
    (State.withCtx_busy ..).trans (by decide), congrArg Status.ctxValid (State.withCtx_status ..), State.withCtx_ctx ..⟩,
    by decide, by decide⟩
/-- "abc" whole, and as 1, 0 and 2 bytes. -/
theorem witness_StreamingContract :
    (ready 64).busy = false ∧ (ready 64).status.ctxValid = true ∧ (ready 64).ctx.bufIdx.toNat ≤ 64 ∧
      (∀ x ∈ ([(0x00636261, 3)] : List (Word × BitVec 3)), x.2.toNat ≤ 4) ∧
      (∀ y ∈ ([(0x61, 1), (0, 0), (0x6362, 2)] : List (Word × BitVec 3)), y.2.toNat ≤ 4) ∧
      chunkBytes [(0x00636261, 3)] = chunkBytes [(0x61, 1), (0, 0), (0x6362, 2)] :=
  ⟨by decide, by decide, by decide, by simp, by simp, rfl⟩
theorem witness_InitDiscardsTheOldContext :
    rest.busy = false ∧ (ready 3).busy = false ∧ rest.regs = (ready 3).regs ∧ paramOK rest.regs.param = true := by decide
theorem witness_ParameterBlockWords : paramOK 0x08082020 = true ∧ paramOK 0x00000000 = true := by decide
theorem witness_ParameterBlockIgnoresUnusedBytes :
    slField 0x00000020 = 0 ∧ plField 0x00000020 = 0 ∧
      (∀ i : Fin 8, i.val < (slField 0x00020020).toNat →
        laneByte #v[0xFFFF6261, 0] i.val (by omega) = laneByte #v[0x00006261, 0] i.val (by omega)) ∧
      (∀ i : Fin 8, i.val < (plField 0x00020020).toNat →
        laneByte #v[0, 0] i.val (by omega) = laneByte #v[1, 1] i.val (by omega)) ∧
      (dsField 0x00020020 = dsField 0x00040020 ∧ klField 0x00020020 = klField 0x00040020 ∧
        plField 0x00020020 = plField 0x00040020 ∧ (slField 0x00020020).toNat ≤ (slField 0x00040020).toNat) ∧
      ∀ i : Fin 8, (slField 0x00020020).toNat ≤ i.val → laneByte #v[0x00006261, 0] i.val (by omega) = 0 := by decide
theorem witness_RotationMovesBits : 7 ∈ [16, 12, 8, 7] ∧ 31 < 32 := by decide
theorem witness_MixingWritesFourWords : ([0, 4, 8, 12] : List (Fin 16)).Nodup ∧ (15 : Fin 16) ∉ [0, 4, 8, 12] := by decide
theorem witness_DisjointMixingsCommute :
    (∀ i ∈ ([0, 4, 8, 12] : List (Fin 16)), i ∉ ([3, 7, 11, 15] : List (Fin 16))) ∧
      (3 : Fin 8) ≠ 0 ∧ ((3 : Fin 8).val < 4 ↔ (0 : Fin 8).val < 4) := by decide
theorem witness_ControllerComputesCompress :
    (compressingFor .digest .dOut true).ctrl.ctl = .cLoad ∧ (compressingFor .digest .dOut true).ctrl.caller = .digest ∧
      (compressingFor .digest .dOut true).ctrl.ret = .dOut ∧
      (compressingFor .absorb .byteTail false).ctrl.ctl = .cLoad ∧
      (compressingFor .absorb .byteTail false).ctrl.caller ≠ .digest ∧
      (compressingFor .absorb .byteTail false).ctrl.ret = .byteTail := by decide
theorem witness_CounterArithmeticOnWords : 64 ≤ 64 ∧ 0 ≤ 64 := by decide
theorem witness_AbsorptionClosedForm :
    (ready 64).ctx.bufIdx.toNat ≤ 64 ∧ ([1] : List Byte) ≠ [] ∧ ([] : List Byte) = [] := by decide
theorem witness_StreamingIsBlockwise :
    (ready 0).ctx.bufIdx = 0 ∧ (List.replicate 65 (1 : Byte)) ≠ [] ∧ 1 = ((List.replicate 65 (1 : Byte)).length - 1) / 64 := by
  decide
theorem witness_HexDigestForm : 31 < (List.replicate 32 (0xF8 : Byte)).length := by decide
theorem witness_EveryStepKeepsTheInvariant : running.Inv ∧ ∃ t, step running = .next t := ⟨inv_running, _, rfl⟩
/-- Two engines with different keys and chaining states. -/
theorem witness_ReadsRevealNoHiddenState :
    (ready 3).SameReadable (((ready 3).withCtx { (ready 3).ctx with h := Vector.replicate 8 5 }).withRegs
      { (ready 3).regs with key := Vector.replicate 8 7 }) ∧ (Cycle.read 0x20).we = false := by decide
/-- An engine at the `C_OUT` of ABSORB's compression. -/
def compressed : State :=
  (compressingFor .absorb .byteTail false).withCtrl { rest.ctrl with ctl := .cOut, caller := .absorb, ret := .byteTail }

theorem inv_compressed : compressed.Inv :=
  ⟨by decide, by decide, by decide, by decide, by decide, by decide, by decide, by decide, by decide⟩

/-- A host access that changes no context, each register of the context changed by a step, and an ABSORB at `C_OUT`. -/
theorem witness_OnlyTheStreamingPathWritesTheContext :
    (∃ t, serve (Cycle.write 0x00 0x00000001) (ready 3) = .next t) ∧
    (compressed.Inv ∧ compressed.ctrl.ctl = .cOut ∧ compressed.ctrl.ret = .byteTail) ∧
    (engineStep (acceptedState (.absorb 1) ((ready 0).withRegs { rest.regs with data := 0x61 }))).ctx.buf ≠
      (ready 0).ctx.buf ∧
    (engineStep (acceptedState (.absorb 1) (ready 0))).ctx.bufIdx ≠ (ready 0).ctx.bufIdx ∧
    (engineStep (acceptedState .init rest)).ctx.ds ≠ (acceptedState .init rest).ctx.ds ∧
      (engineStep (acceptedState .init rest)).ctx.h ≠ (acceptedState .init rest).ctx.h ∧
      (engineStep (acceptedState (.absorb 1) (ready 64))).ctx.t ≠ (acceptedState (.absorb 1) (ready 64)).ctx.t ∧
      (engineStep (acceptedState .init rest)).status.ctxValid ≠ (acceptedState .init rest).status.ctxValid :=
  ⟨serve_next _ _, ⟨inv_compressed, by decide, by decide⟩, by decide⟩
/-- Every length at its bound. -/
theorem witness_HostProgramReadsTheDigest :
    rest.busy = false ∧ (List.replicate 32 (1 : Byte)).length ≤ 32 ∧ (List.replicate 8 (1 : Byte)).length ≤ 8 ∧
      (32 : Byte).toNat ≤ 32 := by decide

end Sys2Proof.Tests
end

/-! PROOFS. Byte order (00_scope.md R13): packing four bytes into a word and reading its bytes back. Both directions
compare bits: `byteOf` reads the bits of one lane, and `getLsbD_le32` says which byte a bit of a packed word is from. -/

namespace Sys2Proof.Machine

/-- Bit `k` of `byte(w, j)` (R13). -/
theorem getLsbD_byteOf (w : Word) (j : Nat) {k : Nat} (hk : k < 8) :
    (byteOf w j).getLsbD k = w.getLsbD (8 * j + k) := by
  simp [byteOf, hk]

/-- Packing the four bytes of a word gives the word. -/
@[simp] theorem le32_byteOf (w : Word) : le32 (byteOf w 0) (byteOf w 1) (byteOf w 2) (byteOf w 3) = w := by
  refine BitVec.eq_of_getLsbD_eq fun i hi => ?_
  rw [getLsbD_le32 _ _ _ _ hi]
  split_ifs <;> exact (getLsbD_byteOf w _ (by omega)).trans (congrArg w.getLsbD (by omega))

/-- Byte `j` of a packed word is the `j`-th byte packed. -/
theorem byteOf_le32 (b0 b1 b2 b3 : Byte) {j : Nat} (hj : j < 4) :
    byteOf (le32 b0 b1 b2 b3) j = #v[b0, b1, b2, b3][j] := by
  refine BitVec.eq_of_getLsbD_eq fun k hk => ?_
  rw [getLsbD_byteOf _ _ hk, getLsbD_le32 _ _ _ _ (by omega)]
  match j, hj with
  | 0, _ => simp [hk]
  | 1, _ => simp [show 8 + k < 16 by omega]
  | 2, _ => simp [show ¬ 16 + k < 8 by omega, show 16 + k < 24 by omega]
  | 3, _ => simp [show ¬ 24 + k < 8 by omega, show ¬ 24 + k < 16 by omega]

/-- Settles O41: each direction is the lemma about it, the second at each of the four lanes. -/
theorem littleEndianPacking : Obligations.LittleEndianPacking :=
  ⟨le32_byteOf, fun b0 b1 b2 b3 =>
    ⟨byteOf_le32 b0 b1 b2 b3 (j := 0) (by decide), byteOf_le32 b0 b1 b2 b3 (j := 1) (by decide),
      byteOf_le32 b0 b1 b2 b3 (j := 2) (by decide), byteOf_le32 b0 b1 b2 b3 (j := 3) (by decide)⟩⟩

end Sys2Proof.Machine

/-! PROOFS. What a host access can do, said once: it writes the host's part of the state alone, or it is the acceptance
of a command (R250, R251). -/

namespace Sys2Proof.Machine

/-- What a command does once its checks are passed (R251), the parameter check of INIT included. -/
def commandEffect : Instr → State → State
  | .nop => id
  | .init => acceptInit
  | .absorb cnt => acceptAbsorb cnt
  | .digest => acceptDigest

/-- The checks a command passes before its effect (R251): BUSY = 0, its operand check and the context it needs. -/
structure CommandAccepted (i : Instr) (s : State) : Prop where
  idle : s.ctrl.ctl = .idle
  absorbCount : ∀ cnt, i = .absorb cnt → cnt.toNat ≤ 4
  context : i ≠ .nop → i ≠ .init → s.status.ctxValid = true

/-- The access writes the host's part alone, and the error fields still agree with each other (R42, R271). -/
def State.OnlyHostWritten (s t : State) : Prop :=
  t = s.withHost t.host ∧ (s.status.ErrorFieldsOk → t.status.ErrorFieldsOk)

theorem State.onlyHostWritten_refl (s : State) : s.OnlyHostWritten s := ⟨rfl, id⟩

theorem State.withOut_onlyHostWritten (s : State) (x : Outputs) : s.OnlyHostWritten (s.withOut x) := ⟨rfl, id⟩

theorem State.withInputs_onlyHostWritten (s : State) (x : List Cycle) : s.OnlyHostWritten (s.withInputs x) := ⟨rfl, id⟩

theorem State.OnlyHostWritten.trans {s t u : State} (h : s.OnlyHostWritten t) (h' : t.OnlyHostWritten u) :
    s.OnlyHostWritten u := by
  obtain ⟨ht, hte⟩ := h
  obtain ⟨hu, hue⟩ := h'
  refine ⟨?_, hue ∘ hte⟩
  rw [hu, ht]
  rfl

/-- Recording an error whose cause is given exactly for PARAM keeps the error fields in agreement. -/
theorem raiseError_errorFieldsOk {s : State} (h : s.status.ErrorFieldsOk) {code : ErrCode} {pc : BitVec 4}
    (hcode : code ≠ .none) (hpc : pc ≠ 0 ↔ code = .param) : (raiseError code pc s).status.ErrorFieldsOk := by
  cases he : s.status.err
  · rw [raiseError_of_clear he]
    exact ⟨by simp [hcode], hpc⟩
  · rwa [raiseError_of_set he]

theorem raiseError_onlyHostWritten (s : State) {code : ErrCode} (hnone : code ≠ .none) (hparam : code ≠ .param) :
    s.OnlyHostWritten (raiseError code 0 s) := by
  refine ⟨?_, fun h => raiseError_errorFieldsOk h hnone (by simp [hparam])⟩
  rw [raiseError_eq_withStatus]
  rfl

theorem writeStatus_onlyHostWritten (w : Word) (s : State) : s.OnlyHostWritten (writeStatus w s) := by
  cases hw : w.getLsbD 3
  · simp only [writeStatus, hw, cond_false]
    exact s.onlyHostWritten_refl
  · simp only [writeStatus, hw, cond_true]
    exact ⟨rfl, fun _ => ⟨by simp [clearError], by simp [clearError]⟩⟩

theorem storeOperand_onlyHostWritten (reg : Reg) (w : Word) (s : State) :
    s.OnlyHostWritten (storeOperand reg w s) := ⟨rfl, id⟩

theorem serveRead_onlyHostWritten (c : Cycle) (s : State) : s.OnlyHostWritten (serveRead c s) := by
  unfold serveRead
  cases c.supported
  · exact ⟨rfl, id⟩
  · cases readDraws (regAt c.addr) s <;> exact ⟨rfl, id⟩

/-- The acceptance checks end in an error of another code than PARAM, or in the effect. -/
theorem accepting_onlyHostWritten_or (legal needsCtx : Bool) (s : State) (effect : State → State) :
    s.OnlyHostWritten (accepting legal needsCtx s effect) ∨
      (s.ctrl.ctl = .idle ∧ legal = true ∧ (needsCtx = true → s.status.ctxValid = true) ∧
        accepting legal needsCtx s effect = effect s) := by
  rcases accepting_cases legal needsCtx s effect with
    ⟨-, heq⟩ | ⟨-, -, heq⟩ | ⟨-, -, -, -, heq⟩ | ⟨hb, hl, hc, heq⟩
  · exact .inl (heq ▸ raiseError_onlyHostWritten s (by decide) (by decide))
  · exact .inl (heq ▸ raiseError_onlyHostWritten s (by decide) (by decide))
  · exact .inl (heq ▸ raiseError_onlyHostWritten s (by decide) (by decide))
  · exact .inr ⟨s.busy_eq_false.1 hb, hl, hc, heq⟩

theorem exec_cases {i : Instr} {s t : State} (h : exec i s = .next t) :
    s.OnlyHostWritten t ∨ (CommandAccepted i s ∧ t = commandEffect i s) := by
  cases i with
  | nop =>
    cases h
    exact (accepting_onlyHostWritten_or true false s fun s => s).imp_right
      fun ⟨hi, _, _, heq⟩ => ⟨⟨hi, nofun, fun hn => absurd rfl hn⟩, heq⟩
  | init =>
    cases h
    exact (accepting_onlyHostWritten_or true false s acceptInit).imp_right
      fun ⟨hi, _, _, heq⟩ => ⟨⟨hi, nofun, fun _ hn => absurd rfl hn⟩, heq⟩
  | absorb cnt =>
    cases h
    refine (accepting_onlyHostWritten_or _ true s (acceptAbsorb cnt)).imp_right
      fun ⟨hi, hl, hc, heq⟩ => ⟨⟨hi, fun n hn => ?_, fun _ _ => hc rfl⟩, heq⟩
    cases hn
    exact of_decide_eq_true hl
  | digest =>
    cases h
    exact (accepting_onlyHostWritten_or true true s acceptDigest).imp_right
      fun ⟨hi, _, hc, heq⟩ => ⟨⟨hi, nofun, fun _ _ => hc rfl⟩, heq⟩

theorem present_cases {w : Word} {s t : State} (h : present w s = .next t) :
    s.OnlyHostWritten t ∨ ∃ i, CommandAccepted i s ∧ t = commandEffect i s := by
  cases hd : decode w with
  | instr i =>
    rw [present_of_instr hd] at h
    exact (exec_cases h).imp_right fun ha => ⟨i, ha⟩
  | rejected why =>
    left
    cases hb : s.busy
    · rw [present_of_rejected hd hb] at h
      cases h
      exact raiseError_onlyHostWritten s (by decide) (by decide)
    · rw [present_of_busy hb] at h
      cases h
      exact raiseError_onlyHostWritten s (by decide) (by decide)

theorem writeReg_cases {reg : Reg} {w : Word} {s t : State} (h : writeReg reg w s = .next t) :
    s.OnlyHostWritten t ∨ ∃ i, CommandAccepted i s ∧ t = commandEffect i s := by
  cases reg with
  | cmd => exact present_cases h
  | status => cases h; exact .inl (writeStatus_onlyHostWritten w s)
  | param => cases h; exact .inl (storeOperand_onlyHostWritten _ w s)
  | data => cases h; exact .inl (storeOperand_onlyHostWritten _ w s)
  | salt i => cases h; exact .inl (storeOperand_onlyHostWritten _ w s)
  | pers i => cases h; exact .inl (storeOperand_onlyHostWritten _ w s)
  | key i => cases h; exact .inl (storeOperand_onlyHostWritten _ w s)
  | digest i => cases h; exact .inl s.onlyHostWritten_refl
  | countLo => cases h; exact .inl s.onlyHostWritten_refl
  | countHi => cases h; exact .inl s.onlyHostWritten_refl
  | reserved => cases h; exact .inl s.onlyHostWritten_refl

theorem serve_of_not_selected {c : Cycle} (h : c.sel = false) (s : State) :
    serve c s = .next (s.withOut { ready := false, rdata := none }) := by
  simp [serve, h]

theorem serve_of_read {c : Cycle} (hsel : c.sel = true) (hwe : c.we = false) (s : State) :
    serve c s = .next (serveRead c s) := by
  simp [serve, hsel, hwe]

theorem serve_of_write {c : Cycle} (hsel : c.sel = true) (hwe : c.we = true) (s : State) :
    serve c s = serveWrite c s := by
  simp [serve, hsel, hwe]

/-- An access writes the host's part of the state alone, or has the effect of an accepted command on the state with the
access's pins. -/
theorem serve_cases {c : Cycle} {s t : State} (h : serve c s = .next t) :
    s.OnlyHostWritten t ∨
      ∃ i, CommandAccepted i s ∧ t = commandEffect i (s.withOut { ready := true, rdata := none }) := by
  cases hsel : c.sel
  · rw [serve_of_not_selected hsel] at h
    cases h
    exact .inl (s.withOut_onlyHostWritten _)
  cases hwe : c.we
  · rw [serve_of_read hsel hwe] at h
    cases h
    exact .inl (serveRead_onlyHostWritten c s)
  have hpins := s.withOut_onlyHostWritten { ready := true, rdata := none }
  rw [serve_of_write hsel hwe, serveWrite] at h
  cases hsup : c.supported <;> simp only [hsup, cond_false, cond_true] at h
  · cases h
    exact .inl hpins
  · exact (writeReg_cases h).imp hpins.trans fun ⟨i, ⟨hidle, hcnt, hctx⟩, heq⟩ => ⟨i, ⟨hidle, hcnt, hctx⟩, heq⟩

end Sys2Proof.Machine

/-! PROOFS. What a controller step does to the context and to CTX_VALID, said once (R170, R193, R211, R257). -/

namespace Sys2Proof.Machine

section
variable (s : State)

@[simp] theorem byteTail_ctx : (byteTail s).ctx = tailContext s.commandByte s.ctx := by simp [byteTail]

@[simp] theorem writeHdst_status : (writeHdst s).status = s.status := by
  unfold writeHdst
  cases s.ctrl.caller <;> rfl

@[simp] theorem mixStep_ctx : (mixStep s).ctx = s.ctx := by
  simp only [mixStep, goto]
  split_ifs <;> rfl

@[simp] theorem mixStep_status : (mixStep s).status = s.status := by
  simp only [mixStep, goto]
  split_ifs <;> rfl

theorem seedStep_of_noKey {s : State} (h : hasKey s.latches = false) :
    seedStep s = initDone (s.withCtx (seedContext s.latches s.ctx)) := by
  simp [seedStep, h]

theorem seedStep_of_hasKey {s : State} (h : hasKey s.latches = true) :
    seedStep s = (s.withCtx (seedContext s.latches s.ctx)).withCtrl { s.ctrl with ctl := .byte, k := 0 } := by
  simp [seedStep, h]

theorem seedStep_ctx : (seedStep s).ctx = seedContext s.latches s.ctx := by
  cases h : hasKey s.latches
  · rw [seedStep_of_noKey h]; rfl
  · rw [seedStep_of_hasKey h]; rfl

/-- `C_OUT` writes the chaining state unless the command is DIGEST, and nothing else of the context. -/
theorem writeHdst_ctx : ∃ h', (writeHdst s).ctx = { s.ctx with h := h' } ∧ (s.ctrl.caller = .digest → h' = s.ctx.h) := by
  unfold writeHdst
  cases s.ctrl.caller with
  | init => exact ⟨_, rfl, nofun⟩
  | absorb => exact ⟨_, rfl, nofun⟩
  | digest => exact ⟨_, rfl, fun _ => rfl⟩

/-- `BYTE(k)` with a full buffer starts the compression that returns to `BYTE'(k)`. -/
theorem byteStep_of_full {s : State} (hk : s.ctrl.k.toNat < s.byteCount) (hf : s.ctx.full = true) :
    byteStep s = ((s.withCtx (advanceCounter s.ctx)).withDp { s.dp with fin := false }).withCtrl
      { s.ctrl with ret := .byteTail, ctl := .cLoad } := by
  simp [byteStep, hk, hf]

/-- `BYTE(k)` with room in the buffer goes on to `BYTE'(k)`. -/
theorem byteStep_of_room {s : State} (hk : s.ctrl.k.toNat < s.byteCount) (hf : s.ctx.full = false) :
    byteStep s = byteTail s := by
  simp [byteStep, hk, hf]

/-- `BYTE(k)` past the end of the sequence ends the command. -/
theorem byteStep_of_end {s : State} (hk : ¬ s.ctrl.k.toNat < s.byteCount) : byteStep s = byteDone s := by
  simp [byteStep, hk]

/-- A byte step advances the counter past a full buffer, stores a byte, or ends an empty sequence. -/
theorem byteStep_ctx :
    (s.ctx.bufIdx = 64 ∧ (byteStep s).ctx = advanceCounter s.ctx) ∨ (∃ b, (byteStep s).ctx = tailContext b s.ctx) ∨
      (byteStep s).ctx = s.ctx := by
  by_cases hk : s.ctrl.k.toNat < s.byteCount
  · cases hf : s.ctx.full
    · exact .inr (.inl ⟨_, byteStep_of_room hk hf ▸ byteTail_ctx s⟩)
    · exact .inl ⟨eq_of_beq hf, by rw [byteStep_of_full hk hf]; rfl⟩
  · exact .inr (.inr (byteStep_of_end hk ▸ byteDone_ctx s))
end

/-- What a controller step makes of the context, by the state of the controller it starts in. -/
inductive ContextStep (s : State) : Context → Prop where
  | unchanged : ContextStep s s.ctx
  | seed : s.ctrl.ctl = .iSeed → ContextStep s (seedContext s.latches s.ctx)
  | advance : s.ctrl.ctl = .byte → s.ctx.bufIdx = 64 → ContextStep s (advanceCounter s.ctx)
  | store (b : Byte) : s.ctrl.ctl = .byte → ContextStep s (tailContext b s.ctx)
  | output (h' : Vector Word 8) : s.ctrl.ctl = .cOut → (s.ctrl.caller = .digest → h' = s.ctx.h) →
      ContextStep s { s.ctx with h := h' }
  | outputStore (h' : Vector Word 8) (b : Byte) : s.ctrl.ctl = .cOut → s.ctrl.ret = .byteTail →
      (s.ctrl.caller = .digest → h' = s.ctx.h) → ContextStep s (tailContext b { s.ctx with h := h' })

theorem engineStep_contextStep (s : State) : ContextStep s (engineStep s).ctx := by
  unfold engineStep
  cases hc : s.ctrl.ctl with
  | idle => exact .unchanged
  | iSeed => exact seedStep_ctx s ▸ .seed hc
  | byte =>
    rcases byteStep_ctx s with ⟨hfull, heq⟩ | ⟨b, heq⟩ | heq
    · exact heq ▸ .advance hc hfull
    · exact heq ▸ .store b hc
    · exact heq ▸ .unchanged
  | dSnap => exact .unchanged
  | cLoad => exact .unchanged
  | cG => exact mixStep_ctx s ▸ .unchanged
  | cOut =>
    obtain ⟨h', heq, hd⟩ := writeHdst_ctx s
    cases hr : s.ctrl.ret with
    | byteTail => simpa [outStep, hr, heq] using ContextStep.outputStore h' _ hc hr hd
    | dOut => simpa [outStep, hr, heq, goto] using ContextStep.output h' hc hd
  | dOut => exact .unchanged

/-! CTX_VALID (R25, R213): a controller step leaves it, or sets it at a completion. -/

/-- The step leaves CTX_VALID, or sets it and ends the command. -/
def State.ContextValidStep (s t : State) : Prop :=
  t.status.ctxValid = s.status.ctxValid ∨ (t.status.ctxValid = true ∧ t.busy = false)

theorem byteDone_contextValidStep (s : State) : s.ContextValidStep (byteDone s) := by
  unfold byteDone
  cases s.ctrl.caller with
  | init => exact .inr ⟨rfl, rfl⟩
  | absorb => exact .inl rfl
  | digest => exact .inl rfl

theorem byteNext_contextValidStep (s : State) : s.ContextValidStep (byteNext s) := by
  rcases byteNext_cases s with ⟨-, -, heq⟩ | heq <;> rw [heq]
  · exact .inl rfl
  · exact byteDone_contextValidStep s

theorem engineStep_contextValidStep (s : State) : s.ContextValidStep (engineStep s) := by
  unfold engineStep
  cases s.ctrl.ctl with
  | idle => exact .inl rfl
  | iSeed =>
    cases h : hasKey s.latches
    · exact .inr (by rw [seedStep_of_noKey h]; exact ⟨rfl, rfl⟩)
    · exact .inl (by rw [seedStep_of_hasKey h]; rfl)
  | byte =>
    by_cases hk : s.ctrl.k.toNat < s.byteCount
    · cases hf : s.ctx.full
      · exact byteStep_of_room hk hf ▸ byteNext_contextValidStep _
      · exact .inl (by rw [byteStep_of_full hk hf]; rfl)
    · exact byteStep_of_end hk ▸ byteDone_contextValidStep s
  | dSnap => exact .inl rfl
  | cLoad => exact .inl rfl
  | cG => exact .inl (by simp)
  | cOut =>
    simp only [outStep]
    have hs : (writeHdst s).status = s.status := writeHdst_status s
    cases (writeHdst s).ctrl.ret
    · unfold State.ContextValidStep
      rw [← hs]
      exact byteNext_contextValidStep _
    · exact .inl (congrArg Status.ctxValid hs)
  | dOut => exact .inl rfl

end Sys2Proof.Machine

/-! PROOFS. The invariant: its form by the state of the controller, and its preservation by accesses, controller steps
and the reset edge. -/

namespace Sys2Proof.Machine

/-- R26: the ranges of a valid context, and its counter of whole blocks. -/
def Context.Ok (c : Context) : Prop := c.RangesOk ∧ c.t.toNat % 64 = 0

/-- What each controller state relies on (the clauses of the invariant about `ctl`, as one case analysis). -/
def State.CtlOk (s : State) : Prop :=
  match s.ctrl.ctl with
  | .idle => True
  | .iSeed => s.ctrl.caller = .init ∧ s.status.ctxValid = false ∧ paramOK s.latches.param = true
  | .byte => s.AbsorbLoopOk ∨ s.InitLoopOk
  | .dSnap => s.status.ctxValid = true
  | .cLoad => s.CompressionOk
  | .cG => s.CompressionOk
  | .cOut => s.CompressionOk
  | .dOut => s.status.ctxValid = true ∧ s.ctrl.caller = .digest

theorem inv_iff (s : State) :
    s.Inv ↔ s.status.ErrorFieldsOk ∧ (s.status.ctxValid = true → s.ctx.Ok) ∧
      (s.status.dvalid = true → s.status.ctxValid = true ∧ s.busy = false) ∧ s.CtlOk := by
  constructor
  · intro h
    refine ⟨h.errorFields, fun hv => ⟨h.ranges hv, h.counter hv⟩, h.digest, ?_⟩
    unfold State.CtlOk
    cases hc : s.ctrl.ctl with
    | idle => trivial
    | iSeed => exact h.seed hc
    | byte => exact h.byteLoop hc
    | dSnap => exact h.snapshot hc
    | cLoad => exact h.compression (.inl hc)
    | cG => exact h.compression (.inr (.inl hc))
    | cOut => exact h.compression (.inr (.inr hc))
    | dOut => exact h.extraction hc
  · rintro ⟨herr, hctx, hdig, hctl⟩
    refine ⟨herr, fun hv => (hctx hv).1, fun hv => (hctx hv).2, hdig, ?_, ?_, ?_, ?_, ?_⟩
    · intro hc; simpa only [State.CtlOk, hc] using hctl
    · intro hc; simpa only [State.CtlOk, hc] using hctl
    · intro hc; simpa only [State.CtlOk, hc] using hctl
    · rintro (hc | hc | hc) <;> simpa only [State.CtlOk, hc] using hctl
    · intro hc; simpa only [State.CtlOk, hc] using hctl

theorem State.Inv.ok {s : State} (h : s.Inv) (hv : s.status.ctxValid = true) : s.ctx.Ok :=
  ⟨h.ranges hv, h.counter hv⟩

/-- In a state of the invariant no digest is valid while a command runs (R230). -/
theorem State.Inv.dvalid_of_running {s : State} (h : s.Inv) (hc : s.ctrl.ctl ≠ .idle) : s.status.dvalid = false := by
  cases hd : s.status.dvalid
  · rfl
  · exact absurd (s.busy_eq_false.1 (h.digest hd).2) hc

/-! The ranges of a context under the operations on it. -/

theorem Context.Ok.withH {c : Context} (h : c.Ok) (h' : Vector Word 8) : Context.Ok { c with h := h' } := h

theorem advanceCounter_ok {c : Context} (h : c.Ok) : (advanceCounter c).Ok := by
  obtain ⟨hr, ht⟩ := h
  refine ⟨hr, ?_⟩
  show (c.t + 64).toNat % 64 = 0
  rw [BitVec.toNat_add]
  show (c.t.toNat + 64) % 2 ^ 64 % 64 = 0
  omega

theorem tailContext_bufIdx (b : Byte) {c : Context} (h : c.bufIdx.toNat < 64) :
    (tailContext b c).bufIdx.toNat = c.bufIdx.toNat + 1 := by
  rw [tailContext, Context.full_of_lt h]
  show (c.bufIdx + 1).toNat = _
  rw [BitVec.toNat_add]
  show (c.bufIdx.toNat + 1) % 128 = _
  omega

theorem tailContext_bufIdx_of_full (b : Byte) {c : Context} (h : c.bufIdx.toNat = 64) :
    (tailContext b c).bufIdx.toNat = 1 := by
  rw [tailContext, (Context.full_iff c).2 h]
  rfl

theorem tailContext_ok (b : Byte) {c : Context} (h : c.Ok) : (tailContext b c).Ok := by
  obtain ⟨⟨hlo, hhi, hbuf⟩, ht⟩ := h
  refine ⟨⟨hlo, hhi, ?_⟩, ht⟩
  rcases Nat.lt_or_eq_of_le hbuf with hlt | heq
  · rw [tailContext_bufIdx b hlt]; omega
  · rw [tailContext_bufIdx_of_full b heq]; omega

/-- R121: parameters are valid when all four lengths are in range. -/
theorem paramOK_iff (param : Word) :
    paramOK param = true ↔ (dsField param).toNat ≤ 32 ∧ (klField param).toNat ≤ 32 ∧ (plField param).toNat ≤ 8 ∧
      (slField param).toNat ≤ 8 := by
  have hbits : ∀ a b c d : Bool,
      ((BitVec.ofBool a ++ BitVec.ofBool b ++ BitVec.ofBool c ++ BitVec.ofBool d : BitVec 4) == 0) = true ↔
        a = false ∧ b = false ∧ c = false ∧ d = false := by decide
  rw [paramOK, pcauseOf, hbits]
  simp only [decide_eq_false_iff_not, Nat.not_lt]

/-- R121, R122: the effective digest size of valid parameters is in 1..32. -/
theorem effectiveDs_range {param : Word} (h : paramOK param = true) :
    1 ≤ ((effectiveDs param).setWidth 6).toNat ∧ ((effectiveDs param).setWidth 6).toNat ≤ 32 := by
  obtain ⟨hds, -⟩ := (paramOK_iff param).1 h
  unfold effectiveDs
  split
  · decide
  · have hpos : (dsField param).toNat ≠ 0 := fun h0 => ‹¬ dsField param = 0› (BitVec.eq_of_toNat_eq h0)
    rw [BitVec.toNat_setWidth]
    omega

theorem seedContext_ok {l : Latches} (h : paramOK l.param = true) (c : Context) : (seedContext l c).Ok := by
  obtain ⟨hlo, hhi⟩ := effectiveDs_range h
  exact ⟨⟨hlo, hhi, Nat.zero_le _⟩, rfl⟩

/-! Host accesses and the acceptance of commands. -/

/-- The invariant says nothing of the host's part but that the error fields agree. -/
theorem State.Inv.of_onlyHostWritten {s t : State} (h : s.Inv) (ht : s.OnlyHostWritten t) : t.Inv := by
  obtain ⟨heq, herr⟩ := ht
  have herr' := herr h.errorFields
  rw [heq] at herr' ⊢
  exact ⟨herr', h.ranges, h.counter, h.digest, h.seed, h.byteLoop, h.snapshot, h.compression, h.extraction⟩

theorem acceptInit_of_ok {s : State} (hp : paramOK s.regs.param = true) :
    acceptInit s =
      (setCtxValid false (clearDvalid (latchInit s))).withCtrl { s.ctrl with ctl := .iSeed, caller := .init } := by
  have hp' : paramOK (setCtxValid false (clearDvalid (latchInit s))).latches.param = true := hp
  simp only [acceptInit, hp']
  rfl

theorem acceptInit_of_bad {s : State} (hp : paramOK s.regs.param = false) :
    acceptInit s = raiseError .param (pcauseOf s.regs.param) (setCtxValid false (clearDvalid (latchInit s))) := by
  have hp' : paramOK (setCtxValid false (clearDvalid (latchInit s))).latches.param = false := hp
  simp only [acceptInit, hp']
  rfl

/-- INIT leaves no context and no digest: the controller is seeding with valid parameters, or PARAM is recorded. -/
theorem acceptInit_inv {s : State} (h : s.Inv) (hidle : s.ctrl.ctl = .idle) : (acceptInit s).Inv := by
  rw [inv_iff]
  cases hp : paramOK s.regs.param
  · have hcause : pcauseOf s.regs.param ≠ 0 := by simpa [paramOK] using hp
    have herr : (setCtxValid false (clearDvalid (latchInit s))).status.ErrorFieldsOk := h.errorFields
    rw [acceptInit_of_bad hp]
    refine ⟨raiseError_errorFieldsOk herr nofun (iff_of_true hcause rfl), ?_, ?_, ?_⟩
    · simp [setCtxValid]
    · simp [setCtxValid, clearDvalid]
    · simp [State.CtlOk, setCtxValid, clearDvalid, latchInit, hidle]
  · rw [acceptInit_of_ok hp]
    exact ⟨h.errorFields, nofun, nofun, rfl, rfl, hp⟩

theorem acceptAbsorb_inv {s : State} (h : s.Inv) {cnt : BitVec 3} (hcnt : cnt.toNat ≤ 4)
    (hv : s.status.ctxValid = true) : (acceptAbsorb cnt s).Inv := by
  rw [inv_iff]
  exact ⟨h.errorFields, fun _ => h.ok hv, nofun, .inl ⟨rfl, hv, hcnt, .inl rfl⟩⟩

theorem acceptDigest_inv {s : State} (h : s.Inv) (hv : s.status.ctxValid = true) : (acceptDigest s).Inv := by
  rw [inv_iff]
  exact ⟨h.errorFields, fun _ => h.ok hv, nofun, hv⟩

theorem commandEffect_inv {i : Instr} {s : State} (h : s.Inv) (ha : CommandAccepted i s) : (commandEffect i s).Inv := by
  obtain ⟨hidle, hcnt, hctx⟩ := ha
  cases i with
  | nop => exact h
  | init => exact acceptInit_inv h hidle
  | absorb cnt => exact acceptAbsorb_inv h (hcnt cnt rfl) (hctx nofun nofun)
  | digest => exact acceptDigest_inv h (hctx nofun nofun)

/-- Serving an access keeps the invariant. -/
theorem serve_inv {c : Cycle} {s t : State} (h : s.Inv) (ht : serve c s = .next t) : t.Inv := by
  rcases serve_cases ht with hhost | ⟨i, ⟨hidle, hcnt, hctx⟩, rfl⟩
  · exact h.of_onlyHostWritten hhost
  · exact commandEffect_inv (h.of_onlyHostWritten (s.withOut_onlyHostWritten _)) ⟨hidle, hcnt, hctx⟩

/-! Controller steps. -/

theorem engineStep_errorFieldsOk {s : State} (h : s.status.ErrorFieldsOk) : (engineStep s).status.ErrorFieldsOk := by
  have herr : (engineStep s).status.err = s.status.err := engineRun_err 1 s
  have hcode : (engineStep s).status.errCode = s.status.errCode := engineRun_errCode 1 s
  have hcause : (engineStep s).status.pcause = s.status.pcause := engineRun_pcause 1 s
  unfold Status.ErrorFieldsOk
  rwa [herr, hcode, hcause]

theorem byteDone_of_absorb {s : State} (h : s.ctrl.caller = .absorb) : byteDone s = goto .idle s := by
  simp [byteDone, h]

theorem byteDone_of_init {s : State} (h : s.ctrl.caller = .init) : byteDone s = initDone s := by
  simp [byteDone, h]

/-- A command that ends on a valid context, with or without a digest, ends in a state of the invariant. -/
theorem goto_idle_inv {s : State} (herr : s.status.ErrorFieldsOk) (hok : s.ctx.Ok) (hv : s.status.ctxValid = true) :
    (goto .idle s).Inv := by
  rw [inv_iff]
  exact ⟨herr, fun _ => hok, fun _ => ⟨hv, rfl⟩, trivial⟩

/-- ABSORB's byte loop goes on, or ends, in a state of the invariant. -/
theorem byteNext_inv_of_absorb {s : State} (herr : s.status.ErrorFieldsOk) (hok : s.ctx.Ok)
    (hv : s.status.ctxValid = true) (hd : s.status.dvalid = false) (hcaller : s.ctrl.caller = .absorb)
    (hcnt : s.latches.cnt.toNat ≤ 4) : (byteNext s).Inv := by
  rcases byteNext_cases s with ⟨hlt, hk, heq⟩ | heq <;> rw [heq]
  · have hcount : s.byteCount = s.latches.cnt.toNat := by simp [State.byteCount, hcaller]
    rw [inv_iff]
    refine ⟨herr, fun _ => hok, fun hdv => absurd hdv (by simp [hd]), .inl ⟨hcaller, hv, hcnt, .inr ?_⟩⟩
    show (s.ctrl.k + 1).toNat < s.latches.cnt.toNat
    omega
  · rw [byteDone_of_absorb hcaller]
    exact goto_idle_inv herr hok hv

/-- INIT's byte loop, once byte `k` is stored, goes on, or completes with a valid context. -/
theorem byteNext_inv_of_init {s : State} (herr : s.status.ErrorFieldsOk) (hv : s.status.ctxValid = false)
    (hd : s.status.dvalid = false) (hcaller : s.ctrl.caller = .init) (hp : paramOK s.latches.param = true)
    (hkey : hasKey s.latches = true) (ht : s.ctx.t = 0) (hk : s.ctrl.k.toNat < 64)
    (hbuf : s.ctx.bufIdx.toNat = s.ctrl.k.toNat + 1) (hlo : 1 ≤ s.ctx.ds.toNat) (hhi : s.ctx.ds.toNat ≤ 32) :
    (byteNext s).Inv := by
  rcases byteNext_cases s with ⟨hlt, hk', heq⟩ | heq <;> rw [heq]
  · have hcount : s.byteCount = 64 := by simp [State.byteCount, hcaller]
    rw [inv_iff]
    refine ⟨herr, fun hv' => absurd hv' (by simp [hv]), fun hdv => absurd hdv (by simp [hd]),
      .inr ⟨hcaller, hv, hp, hkey, ht, ?_, hbuf.trans hk'.symm, hlo, hhi⟩⟩
    show (s.ctrl.k + 1).toNat < 64
    omega
  · rw [byteDone_of_init hcaller]
    have hok : s.ctx.Ok := ⟨⟨hlo, hhi, by omega⟩, by rw [ht]; rfl⟩
    exact goto_idle_inv (s := setCtxValid true s) herr hok rfl

section
variable {s : State} (h : s.Inv)
include h

theorem seedStep_inv (hc : s.ctrl.ctl = .iSeed) : (seedStep s).Inv := by
  obtain ⟨hcaller, hv, hp⟩ := h.seed hc
  have hd := h.dvalid_of_running (by simp [hc])
  have hok := seedContext_ok hp s.ctx
  cases hkey : hasKey s.latches
  · rw [seedStep_of_noKey hkey]
    exact goto_idle_inv (s := setCtxValid true (s.withCtx _)) h.errorFields hok rfl
  · obtain ⟨hlo, hhi⟩ := effectiveDs_range hp
    rw [seedStep_of_hasKey hkey, inv_iff]
    exact ⟨h.errorFields, fun _ => hok, fun hdv => absurd hdv (by simp [hd]),
      .inr ⟨hcaller, hv, hp, hkey, rfl, Nat.zero_lt_succ 63, rfl, hlo, hhi⟩⟩

theorem byteStep_inv_of_absorb (hd : s.status.dvalid = false) (hl : s.AbsorbLoopOk) : (byteStep s).Inv := by
  obtain ⟨hcaller, hv, hcnt, -⟩ := hl
  have hcount : s.byteCount = s.latches.cnt.toNat := by simp [State.byteCount, hcaller]
  by_cases hk : s.ctrl.k.toNat < s.byteCount
  · cases hf : s.ctx.full
    · rw [byteStep_of_room hk hf]
      exact byteNext_inv_of_absorb h.errorFields (tailContext_ok _ (h.ok hv)) hv hd hcaller hcnt
    · rw [byteStep_of_full hk hf, inv_iff]
      exact ⟨h.errorFields, fun _ => advanceCounter_ok (h.ok hv), fun hdv => absurd hdv (by simp [hd]), hv,
        .inl ⟨hcaller, rfl, rfl, eq_of_beq hf, hcnt, hcount ▸ hk⟩⟩
  · rw [byteStep_of_end hk, byteDone_of_absorb hcaller]
    exact goto_idle_inv h.errorFields (h.ok hv) hv

theorem byteStep_inv_of_init (hd : s.status.dvalid = false) (hl : s.InitLoopOk) : (byteStep s).Inv := by
  obtain ⟨hcaller, hv, hp, hkey, ht, hk, hbuf, hlo, hhi⟩ := hl
  have hcount : s.byteCount = 64 := by simp [State.byteCount, hcaller]
  have hroom : s.ctx.bufIdx.toNat < 64 := by omega
  rw [byteStep_of_room (by omega) (Context.full_of_lt hroom)]
  exact byteNext_inv_of_init h.errorFields hv hd hcaller hp hkey ht hk
    ((tailContext_bufIdx _ hroom).trans (by rw [hbuf]; rfl)) hlo hhi

theorem byteStep_inv (hc : s.ctrl.ctl = .byte) : (byteStep s).Inv := by
  have hd := h.dvalid_of_running (by simp [hc])
  exact (h.byteLoop hc).elim (byteStep_inv_of_absorb h hd) (byteStep_inv_of_init h hd)

theorem snapStep_inv (hc : s.ctrl.ctl = .dSnap) : (snapStep s).Inv := by
  have hv := h.snapshot hc
  have hd := h.dvalid_of_running (by simp [hc])
  rw [inv_iff]
  exact ⟨h.errorFields, fun _ => h.ok hv, fun hdv => absurd hdv (by simp [snapStep, hd]), hv, .inr ⟨rfl, rfl, rfl⟩⟩

/-- A step from one state of a compression to another keeps what the compression relies on. -/
theorem inv_of_compressing {dp : Datapath} {ctrl : Controller} (hc : s.compressing) (hfin : dp.fin = s.dp.fin)
    (hctl : ctrl.ctl = .cG ∨ ctrl.ctl = .cOut) (hk : ctrl.k = s.ctrl.k) (hcaller : ctrl.caller = s.ctrl.caller)
    (hret : ctrl.ret = s.ctrl.ret) : ((s.withDp dp).withCtrl ctrl).Inv := by
  have hcomp : ((s.withDp dp).withCtrl ctrl).CompressionOk := by
    simpa [State.CompressionOk, hfin, hk, hcaller, hret] using h.compression hc
  have hd : s.status.dvalid = false := h.dvalid_of_running (by rcases hc with hc | hc | hc <;> simp [hc])
  rw [inv_iff]
  refine ⟨h.errorFields, h.ok, fun hdv => absurd hdv (by simp [hd]), ?_⟩
  rcases hctl with hctl | hctl <;> simpa only [State.CtlOk, State.withCtrl_ctrl, hctl] using hcomp

theorem mixStep_inv (hc : s.ctrl.ctl = .cG) : (mixStep s).Inv := by
  have hcomp : s.compressing := .inr (.inl hc)
  simp only [mixStep]
  split_ifs
  · exact inv_of_compressing h hcomp rfl (.inl hc) rfl rfl rfl
  · exact inv_of_compressing h hcomp rfl (.inl hc) rfl rfl rfl
  · exact inv_of_compressing h hcomp rfl (.inr rfl) rfl rfl rfl

theorem outStep_inv (hc : s.ctrl.ctl = .cOut) : (outStep s).Inv := by
  obtain ⟨hv, hcase⟩ := h.compression (.inr (.inr hc))
  have hd := h.dvalid_of_running (by simp [hc])
  obtain ⟨hcaller, hret, -, -, hcnt, -⟩ | ⟨hcaller, hret, -⟩ := hcase
  · have heq : outStep s = byteTail (s.withCtx { s.ctx with h := outWords s.ctx.h s.dp.v }) := by
      simp [outStep, writeHdst, hcaller, hret]
    rw [heq]
    exact byteNext_inv_of_absorb h.errorFields (tailContext_ok _ ((h.ok hv).withH _)) hv hd hcaller hcnt
  · have heq : outStep s = goto .dOut (s.withDp { s.dp with hs := outWords s.ctx.h s.dp.v }) := by
      simp [outStep, writeHdst, hcaller, hret]
    rw [heq, inv_iff]
    exact ⟨h.errorFields, fun _ => h.ok hv, fun hdv => absurd hdv (by simp [goto, hd]), hv, hcaller⟩

theorem extractStep_inv (hc : s.ctrl.ctl = .dOut) : (extractStep s).Inv := by
  obtain ⟨hv, -⟩ := h.extraction hc
  exact goto_idle_inv (s := (s.withDreg _).withStatus _) h.errorFields (h.ok hv) hv

/-- Every controller step keeps the invariant. -/
theorem engineStep_inv : (engineStep s).Inv := by
  unfold engineStep
  cases hc : s.ctrl.ctl with
  | idle => exact h
  | iSeed => exact seedStep_inv h hc
  | byte => exact byteStep_inv h hc
  | dSnap => exact snapStep_inv h hc
  | cLoad => exact inv_of_compressing h (.inl hc) rfl (.inl rfl) rfl rfl rfl
  | cG => exact mixStep_inv h hc
  | cOut => exact outStep_inv h hc
  | dOut => exact extractStep_inv h hc
end

theorem engineRun_inv {s : State} (h : s.Inv) (n : Nat) : (engineRun n s).Inv := by
  induction n generalizing s with
  | zero => exact h
  | succ n ih => exact ih (engineStep_inv h)

/-- A state at rest without a context, a digest or an error is in the invariant. -/
theorem inv_of_reset {s : State} (hst : s.status = Status.reset) (hidle : s.ctrl.ctl = .idle) : s.Inv := by
  rw [inv_iff, hst]
  refine ⟨by decide, nofun, nofun, ?_⟩
  simp [State.CtlOk, hidle]

/-- One clock cycle keeps the invariant: the reset edge reaches it from any state, the access keeps it, and the
controller steps after it keep it. -/
theorem cycle_inv {c : Cycle} {s t : State} (h : s.Inv) (ht : cycle c s = .next t) : t.Inv := by
  cases hr : c.rst
  · rw [cycle_of_running hr, onNext_eq_next] at ht
    obtain ⟨u, hu, rfl⟩ := ht
    have hinv := serve_inv h hu
    cases s.busy
    · exact hinv
    · exact engineRun_inv hinv _
  · rw [cycle_of_reset hr] at ht
    cases ht
    exact inv_of_reset rfl rfl

/-- Settles O56. A step is one clock cycle on a state that differs in its inputs only. -/
theorem everyStepKeepsTheInvariant : Obligations.EveryStepKeepsTheInvariant := by
  intro s t h ht
  unfold step at ht
  split at ht
  · exact cycle_inv h ht
  · exact cycle_inv (h.of_onlyHostWritten (s.withInputs_onlyHostWritten _)) ht

/-- Settles O55. -/
theorem invariantAtReset : Obligations.InvariantAtReset := inv_of_reset rfl rfl

end Sys2Proof.Machine

/-! PROOFS. The register window: which offset names which register (R40), what a register reads after a store, and the
fields of STATUS and the counter. -/

namespace Sys2Proof.Machine

/-- The byte offset of a register in the window (R40); the reserved ones share the first of theirs. -/
def Reg.offset : Reg → Nat
  | .cmd => 0x00
  | .status => 0x04
  | .param => 0x08
  | .data => 0x0C
  | .salt i => 0x10 + 4 * i.val
  | .pers i => 0x18 + 4 * i.val
  | .key i => 0x20 + 4 * i.val
  | .digest i => 0x40 + 4 * i.val
  | .countLo => 0x60
  | .countHi => 0x64
  | .reserved => 0x68

/-- An aligned offset that names a register is that register's. -/
theorem offset_regAt {off : BitVec 8} (ha : off.toNat % 4 = 0) (hr : regAt off ≠ .reserved) :
    (regAt off).offset = off.toNat := by
  revert hr
  simp only [regAt]
  split_ifs <;> simp [Reg.offset, Fin.ofNat] <;> omega

/-- Two aligned offsets name different registers, unless both are reserved. -/
theorem regAt_injective {off off' : BitVec 8} (ha : off.toNat % 4 = 0) (ha' : off'.toNat % 4 = 0)
    (hr : regAt off ≠ .reserved) (h : regAt off' = regAt off) : off' = off := by
  have heq := offset_regAt ha hr
  rw [← h, offset_regAt ha' (h ▸ hr)] at heq
  exact BitVec.eq_of_toNat_eq heq

theorem regAt_key (i : Fin 8) : regAt (BitVec.ofNat 8 (0x20 + 4 * i.val)) = .key i := by
  revert i; decide

theorem regAt_digest (i : Fin 8) : regAt (BitVec.ofNat 8 (0x40 + 4 * i.val)) = .digest i := by
  revert i; decide

theorem regAt_reserved {off : BitVec 8} (h : 0x68 ≤ off.toNat) : regAt off = .reserved := by
  dsimp only [regAt]
  iterate 10 rw [if_neg (by omega)]

theorem key_aligned (i : Fin 8) : (BitVec.ofNat 8 (0x20 + 4 * i.val)).toNat % 4 = 0 := by
  revert i; decide

theorem digest_aligned (i : Fin 8) : (BitVec.ofNat 8 (0x40 + 4 * i.val)).toNat % 4 = 0 := by
  revert i; decide

/-! Reads after stores. -/

@[simp] theorem readReg_withOut (reg : Reg) (s : State) (x : Outputs) : readReg reg (s.withOut x) = readReg reg s := rfl

@[simp] theorem readReg_withInputs (reg : Reg) (s : State) (x : List Cycle) :
    readReg reg (s.withInputs x) = readReg reg s := rfl

/-- R43 to R46: the registers a host can write and read back. -/
inductive Reg.ReadWrite : Reg → Prop where
  | param : Reg.ReadWrite .param
  | data : Reg.ReadWrite .data
  | salt (i : Fin 2) : Reg.ReadWrite (.salt i)
  | pers (i : Fin 2) : Reg.ReadWrite (.pers i)

theorem Reg.ReadWrite.ne_reserved {reg : Reg} (h : reg.ReadWrite) : reg ≠ .reserved := by
  rintro rfl
  cases h

theorem readReg_storeOperand_same {reg : Reg} (h : reg.ReadWrite) (w : Word) (s : State) :
    readReg reg (storeOperand reg w s) = w := by
  cases h with
  | param => rfl
  | data => rfl
  | salt i => simp [readReg, storeReg]
  | pers i => simp [readReg, storeReg]

/-- A store is read at its own register only. -/
theorem readReg_storeOperand_of_ne {reg reg' : Reg} (h : reg' ≠ reg) (w : Word) (s : State) :
    readReg reg' (storeOperand reg w s) = readReg reg' s := by
  cases reg' with
  | param =>
    cases reg with
    | param => exact absurd rfl h
    | _ => rfl
  | data =>
    cases reg with
    | data => exact absurd rfl h
    | _ => rfl
  | salt i =>
    cases reg with
    | salt j =>
      have hne : j.val ≠ i.val := fun hij => h (by rw [Fin.ext hij])
      simp [readReg, storeReg, hne]
    | _ => rfl
  | pers i =>
    cases reg with
    | pers j =>
      have hne : j.val ≠ i.val := fun hij => h (by rw [Fin.ext hij])
      simp [readReg, storeReg, hne]
    | _ => rfl
  | _ => rfl

theorem serve_write_of_readWrite {off : BitVec 8} (ha : off.toNat % 4 = 0) (h : (regAt off).ReadWrite) (w : Word)
    (s : State) : serve (Cycle.write off w) s =
      .next (storeOperand (regAt off) w (s.withOut { ready := true, rdata := none })) := by
  rw [serve_write ha]
  generalize regAt off = reg at h ⊢
  cases h <;> rfl

/-- Each offset of an access type RW (R40) is aligned and names its register. -/
theorem readWrite_of_mem {off : BitVec 8} (h : off ∈ [0x08, 0x0C, 0x10, 0x14, 0x18, 0x1C]) :
    off.toNat % 4 = 0 ∧ (regAt off).ReadWrite := by
  simp only [List.mem_cons, List.not_mem_nil, or_false] at h
  rcases h with rfl | rfl | rfl | rfl | rfl | rfl
  · exact ⟨rfl, .param⟩
  · exact ⟨rfl, .data⟩
  · exact ⟨rfl, .salt 0⟩
  · exact ⟨rfl, .salt 1⟩
  · exact ⟨rfl, .pers 0⟩
  · exact ⟨rfl, .pers 1⟩

theorem storeReg_key {reg : Reg} (h : reg.ReadWrite) (w : Word) (r : OperandRegs) : (storeReg reg w r).key = r.key := by
  cases h <;> rfl

/-- Settles O9. Another aligned offset names another register, so its read passes the store. -/
theorem operandRegistersReadBack : Obligations.OperandRegistersReadBack := by
  intro s off w hoff
  obtain ⟨ha, hrw⟩ := readWrite_of_mem hoff
  refine ⟨_, serve_write_of_readWrite ha hrw w s, ?_, fun off' w' hne hread => ?_, storeReg_key hrw w s.regs, rfl⟩
  · rw [reads_iff, if_pos ha, readReg_storeOperand_same hrw]
  · rw [reads_iff] at hread ⊢
    rw [← hread]
    by_cases ha' : off'.toNat % 4 = 0
    · have hreg : regAt off' ≠ regAt off := fun h => hne (regAt_injective ha ha' hrw.ne_reserved h)
      rw [if_pos ha', if_pos ha', readReg_storeOperand_of_ne hreg, readReg_withOut]
    · rw [if_neg ha', if_neg ha']

/-- Settles O10. -/
theorem keyRegistersAreWriteOnly : Obligations.KeyRegistersAreWriteOnly := by
  refine ⟨fun s i w => ⟨_, ?_, rfl⟩, fun s i => ?_, fun param key i => ?_, fun i => ?_⟩
  · rw [serve_write (key_aligned i), regAt_key]
    rfl
  · rw [reads_iff, if_pos (key_aligned i), regAt_key]
    rfl
  · simp only [keyBlock, Fin.getElem_fin, Vector.getElem_ofFn, byteWithin, laneByte]
    by_cases h : i.val < 32 <;> by_cases hk : i.val < (klField param).toNat <;> simp [h, hk]
  · simp [OperandRegs.reset]

/-- Settles O11. -/
theorem digestRegistersAreMasked : Obligations.DigestRegistersAreMasked := by
  intro s i
  refine ⟨?_, fun w => ?_⟩
  · rw [reads_iff, if_pos (digest_aligned i), regAt_digest]
    exact Bool.cond_eq_ite ..
  · rw [serve_write (digest_aligned i), regAt_digest]
    rfl

/-- Settles O14. -/
theorem statusWriteClearsTheError : Obligations.StatusWriteClearsTheError := by
  intro s w
  have hserve : serve (Cycle.write 0x04 w) s = .next (writeStatus w (s.withOut { ready := true, rdata := none })) :=
    serve_write (by decide) w s
  refine ⟨fun hw => ?_, fun hw => ?_⟩ <;> rw [hserve, writeStatus, hw] <;> rfl

/-! The words of STATUS and the counter. -/

section
variable (bi : BitVec 7) (st : Status) (busy : Bool)
/-- R42: the flags of the STATUS word. -/
theorem statusBits_flags : (statusBits bi st busy).getLsbD 0 = busy ∧ (statusBits bi st busy).getLsbD 1 = st.ctxValid ∧
    (statusBits bi st busy).getLsbD 2 = st.dvalid ∧ (statusBits bi st busy).getLsbD 3 = st.err := by
  simp only [statusBits, BitVec.getLsbD_append]
  simp

/-- R42: the fields of the STATUS word, the reserved ones 0. -/
theorem statusBits_fields :
    (statusBits bi st busy).extractLsb' 4 4 = 0 ∧ (statusBits bi st busy).extractLsb' 8 4 = st.errCode.bits ∧
      (statusBits bi st busy).extractLsb' 12 4 = st.pcause ∧ (statusBits bi st busy).extractLsb' 16 7 = bi ∧
      (statusBits bi st busy).extractLsb' 23 9 = 0 := by
  simp (disch := decide) only [statusBits, BitVec.extractLsb'_append_eq_of_le, BitVec.extractLsb'_append_eq_of_add_le]
  exact ⟨BitVec.extractLsb'_eq_self, BitVec.extractLsb'_eq_self, BitVec.extractLsb'_eq_self,
    BitVec.extractLsb'_eq_self, BitVec.extractLsb'_eq_self⟩
end

theorem tHi_append_tLo (t : BitVec 64) : tHi t ++ tLo t = t :=
  BitVec.extractLsb'_append_extractLsb'

theorem countWord_of_rest {s : State} (hv : s.status.ctxValid = true) (hb : s.busy = false)
    (field : BitVec 64 → Word) : s.countWord field = field s.ctx.t := by
  simp [State.countWord, hv, hb]

theorem countWord_of_invalid {s : State} (h : s.status.ctxValid = false) (field : BitVec 64 → Word) :
    s.countWord field = 0 := by
  simp [State.countWord, h]

theorem serve_read_of_rest {s : State} (hb : s.busy = false) {off : BitVec 8} (ha : off.toNat % 4 = 0) :
    serve (Cycle.read off) s = .next (s.withOut { ready := true, rdata := some (readReg (regAt off) s) }) := by
  rw [serve_read ha, readDraws, State.readsFree, hb]
  rfl

/-- At rest a read cycle changes nothing but the pins and the list of inputs. -/
theorem step_read_of_rest {s : State} (hb : s.busy = false) {off : BitVec 8} (ha : off.toNat % 4 = 0)
    {rest : List Cycle} (hin : s.inputs = Cycle.read off :: rest) :
    step s = .next ((s.withInputs rest).withOut { ready := true, rdata := some (readReg (regAt off) s) }) := by
  have hb' : (s.withInputs rest).busy = false := hb
  rw [step, hin]
  dsimp only
  rw [cycle_of_running rfl, serve_read_of_rest hb' ha, hb']
  rfl

/-- Settles O12. The second read finds the state the first found, but for its pins. -/
theorem counterReadsAreConsistent : Obligations.CounterReadsAreConsistent := by
  intro s rest hin hb
  have hstep := step_read_of_rest hb (off := 0x60) (by decide) hin
  have hstep' := step_read_of_rest (s := (s.withInputs (Cycle.read 0x64 :: rest)).withOut
    { ready := true, rdata := some (readReg (regAt 0x60) s) }) hb (off := 0x64) (by decide) rfl
  refine ⟨_, _, hstep, hstep', rfl, fun hv => ⟨tLo s.ctx.t, tHi s.ctx.t, ?_, ?_, tHi_append_tLo _⟩, fun hv => ⟨?_, ?_⟩⟩
  · exact congrArg some (countWord_of_rest hv hb tLo)
  · exact congrArg some (countWord_of_rest hv hb tHi)
  · exact congrArg some (countWord_of_invalid hv tLo)
  · exact congrArg some (countWord_of_invalid hv tHi)

theorem reads_status (s : State) : s.Reads 0x04 s.statusWord := (reads_iff s 0x04 _).2 rfl

theorem readDraws_reserved (s : State) : readDraws .reserved s = false := by
  unfold readDraws
  cases s.readsFree <;> rfl

/-- Settles O15. -/
theorem reservedOffsetsDoNothing : Obligations.ReservedOffsetsDoNothing := by
  refine ⟨fun s off hoff ha => ⟨?_, fun w => ?_⟩, fun s => ⟨_, reads_status s, ?_⟩⟩
  · rw [serve_read ha, regAt_reserved hoff]
    rw [readDraws_reserved]
    rfl
  · rw [serve_write ha, regAt_reserved hoff]
    rfl
  · obtain ⟨hlow, -, -, -, hhigh⟩ := statusBits_fields s.bufIdxField s.status s.busy
    exact ⟨hlow, hhigh⟩

theorem bufIdxField_of_invalid {s : State} (h : s.status.ctxValid = false) : s.bufIdxField = 0 := by
  simp [State.bufIdxField, h]

theorem bufIdxField_of_rest {s : State} (hv : s.status.ctxValid = true) (hb : s.busy = false) :
    s.bufIdxField = s.ctx.bufIdx := by
  simp [State.bufIdxField, hv, hb]

theorem errCode_bits_le (c : ErrCode) : c.bits.toNat ≤ 4 := by
  cases c <;> decide

theorem errCode_bits_eq_one {c : ErrCode} : c.bits = 1 ↔ c = .param := by
  cases c <;> decide

/-- Settles O13. PCAUSE and the range of BUFIDX are the invariant's; the rest is the layout of the word. -/
theorem statusReadsItsFields : Obligations.StatusReadsItsFields := by
  intro s h
  obtain ⟨hbusy, hctx, hdig, herr⟩ := statusBits_flags s.bufIdxField s.status s.busy
  obtain ⟨hlow, hcode, hcause, hidx, hhigh⟩ := statusBits_fields s.bufIdxField s.status s.busy
  refine ⟨_, reads_status s, hbusy, hctx, hdig, herr, hlow, hcode, hcause, hhigh, fun hv => ?_, fun hv hb => ?_, ?_,
    fun hne => ?_⟩
  · exact hidx.trans (bufIdxField_of_invalid hv)
  · obtain ⟨-, -, hle⟩ := h.ranges hv
    have heq := hidx.trans (bufIdxField_of_rest hv hb)
    exact ⟨heq, (congrArg BitVec.toNat heq).trans_le hle⟩
  · exact (congrArg BitVec.toNat hcode).trans_le (errCode_bits_le _)
  · obtain ⟨-, hparam⟩ := h.errorFields
    refine hcause.trans (by_contra fun hpc => hne (hcode.trans ?_))
    exact errCode_bits_eq_one.2 (hparam.1 hpc)

end Sys2Proof.Machine

/-! PROOFS. Reads of two states that agree on what is readable (R52, R286). -/

namespace Sys2Proof.Machine

section
variable {s s' : State} (h : s.SameReadable s')
include h

theorem State.SameReadable.readsFree_eq : s.readsFree = s'.readsFree := by
  obtain ⟨-, -, -, -, hstatus, hbusy, -⟩ := h
  rw [State.readsFree, State.readsFree, hstatus, hbusy]

theorem State.SameReadable.statusWord_eq : s.statusWord = s'.statusWord := by
  obtain ⟨-, -, -, -, hstatus, hbusy, -, hctx, hdraws⟩ := h
  have hidx : s.bufIdxField = s'.bufIdxField := by
    cases hv : s.status.ctxValid <;> cases hb : s.busy
    · simp [State.bufIdxField, ← hstatus, hv]
    · simp [State.bufIdxField, ← hstatus, hv]
    · simp [State.bufIdxField, ← hstatus, ← hbusy, hv, hb, (hctx hv hb).2]
    · simp [State.bufIdxField, ← hstatus, ← hbusy, hv, hb, hdraws]
  rw [State.statusWord, State.statusWord, hidx, hstatus, hbusy]

theorem State.SameReadable.countWord_eq (field : BitVec 64 → Word) : s.countWord field = s'.countWord field := by
  obtain ⟨-, -, -, -, hstatus, hbusy, -, hctx, hdraws⟩ := h
  cases hv : s.status.ctxValid <;> cases hb : s.busy
  · simp [State.countWord, ← hstatus, hv]
  · simp [State.countWord, ← hstatus, hv]
  · simp [State.countWord, ← hstatus, ← hbusy, hv, hb, (hctx hv hb).1]
  · simp [State.countWord, ← hstatus, ← hbusy, hv, hb, hdraws]

theorem State.SameReadable.readReg_eq (reg : Reg) : readReg reg s = readReg reg s' := by
  have hword := h.statusWord_eq
  have hcount := h.countWord_eq
  obtain ⟨hparam, hdata, hsalt, hpers, hstatus, -, hdreg, -⟩ := h
  cases reg with
  | cmd => rfl
  | status => exact hword
  | param => exact hparam
  | data => exact hdata
  | salt i => exact congrArg (·[i]) hsalt
  | pers i => exact congrArg (·[i]) hpers
  | key i => rfl
  | digest i =>
    cases hd : s.status.dvalid
    · simp [readReg, ← hstatus, hd]
    · simp [readReg, ← hstatus, hd, hdreg hd]
  | countLo => exact hcount tLo
  | countHi => exact hcount tHi
  | reserved => rfl

theorem State.SameReadable.withOut (x : Outputs) : (s.withOut x).SameReadable (s'.withOut x) := h

theorem State.SameReadable.withDraws (n : Nat) : (s.withDraws n).SameReadable (s'.withDraws n) := by
  obtain ⟨hparam, hdata, hsalt, hpers, hstatus, hbusy, hdreg, hctx, -⟩ := h
  exact ⟨hparam, hdata, hsalt, hpers, hstatus, hbusy, hdreg, hctx, rfl⟩

theorem State.SameReadable.serveRead (c : Cycle) :
    (serveRead c s).out = (serveRead c s').out ∧ (serveRead c s).SameReadable (serveRead c s') := by
  unfold Machine.serveRead
  cases c.supported
  · exact ⟨rfl, h.withOut _⟩
  have hdraws : s.draws = s'.draws := by
    obtain ⟨-, -, -, -, -, -, -, -, hdraws⟩ := h
    exact hdraws
  have hread := h.readReg_eq (regAt c.addr)
  have hdraw : readDraws (regAt c.addr) s = readDraws (regAt c.addr) s' := by
    rw [readDraws, readDraws, h.readsFree_eq]
  simp only [hdraw, hread, hdraws, cond_true]
  cases readDraws (regAt c.addr) s'
  · exact ⟨rfl, h.withOut _⟩
  · exact ⟨rfl, (h.withDraws _).withOut _⟩
end

/-- Settles O57. An access that is no write is a read, or none at all. -/
theorem readsRevealNoHiddenState : Obligations.ReadsRevealNoHiddenState := by
  intro s s' c h hwe
  cases hsel : c.sel
  · exact ⟨_, _, serve_of_not_selected hsel s, serve_of_not_selected hsel s', rfl, h.withOut _⟩
  · exact ⟨_, _, serve_of_read hsel hwe s, serve_of_read hsel hwe s', h.serveRead c⟩

end Sys2Proof.Machine

/-! PROOFS. Who writes the context (R20 to R25, R257). -/

namespace Sys2Proof.Machine

theorem commandEffect_ctx (i : Instr) (s : State) : (commandEffect i s).ctx = s.ctx := by
  cases i with
  | nop => rfl
  | init =>
    cases hp : paramOK s.regs.param
    · simp [commandEffect, acceptInit_of_bad hp, setCtxValid, clearDvalid, latchInit]
    · simp [commandEffect, acceptInit_of_ok hp, setCtxValid, clearDvalid, latchInit]
  | absorb cnt => rfl
  | digest => rfl

theorem serve_ctx {c : Cycle} {s t : State} (h : serve c s = .next t) : t.ctx = s.ctx := by
  rcases serve_cases h with ⟨heq, -⟩ | ⟨i, -, rfl⟩
  · rw [heq]
    rfl
  · exact commandEffect_ctx i _

/-- Which registers of the context a controller step writes, and where (R257). -/
theorem ContextStep.writes {s : State} {c : Context} (h : ContextStep s c) :
    (c.ds ≠ s.ctx.ds → s.ctrl.ctl = .iSeed) ∧
    (c.h ≠ s.ctx.h → s.ctrl.ctl = .iSeed ∨ (s.ctrl.ctl = .cOut ∧ s.ctrl.caller ≠ .digest)) ∧
    (c.t ≠ s.ctx.t → s.ctrl.ctl = .iSeed ∨ (s.ctrl.ctl = .byte ∧ s.ctx.bufIdx = 64 ∧ c.t = s.ctx.t + 64)) ∧
    (c.buf ≠ s.ctx.buf → s.ctrl.ctl = .byte ∨ (s.ctrl.ctl = .cOut ∧ s.ctrl.ret = .byteTail)) ∧
    (c.bufIdx ≠ s.ctx.bufIdx →
      s.ctrl.ctl = .iSeed ∨ s.ctrl.ctl = .byte ∨ (s.ctrl.ctl = .cOut ∧ s.ctrl.ret = .byteTail)) := by
  cases h with
  | unchanged => exact ⟨absurd rfl, absurd rfl, absurd rfl, absurd rfl, absurd rfl⟩
  | seed hc => exact ⟨fun _ => hc, fun _ => .inl hc, fun _ => .inl hc, absurd rfl, fun _ => .inl hc⟩
  | advance hc hfull =>
    exact ⟨absurd rfl, absurd rfl, fun _ => .inr ⟨hc, hfull, rfl⟩, absurd rfl, absurd rfl⟩
  | store b hc => exact ⟨absurd rfl, absurd rfl, absurd rfl, fun _ => .inl hc, fun _ => .inr (.inl hc)⟩
  | output h' hc hd =>
    exact ⟨absurd rfl, fun hne => .inr ⟨hc, fun hdig => hne (hd hdig)⟩, absurd rfl, absurd rfl, absurd rfl⟩
  | outputStore h' b hc hr hd =>
    exact ⟨absurd rfl, fun hne => .inr ⟨hc, fun hdig => hne (hd hdig)⟩, absurd rfl, fun _ => .inr ⟨hc, hr⟩,
      fun _ => .inr (.inr ⟨hc, hr⟩)⟩

/-- A compression that returns to `BYTE'` is ABSORB's. -/
theorem caller_of_ret_byteTail {s : State} (h : s.Inv) (hc : s.ctrl.ctl = .cOut) (hr : s.ctrl.ret = .byteTail) :
    s.ctrl.caller = .absorb := by
  obtain ⟨-, ⟨hcaller, -⟩ | ⟨-, hr', -⟩⟩ := h.compression (.inr (.inr hc))
  · exact hcaller
  · rw [hr] at hr'
    contradiction

/-- Settles O58. -/
theorem onlyTheStreamingPathWritesTheContext : Obligations.OnlyTheStreamingPathWritesTheContext := by
  refine ⟨fun s t c => serve_ctx, fun s => ?_⟩
  obtain ⟨hds, hh, ht, hbuf, hidx⟩ := (engineStep_contextStep s).writes
  exact ⟨hds, hh, ht, hbuf, hidx, caller_of_ret_byteTail, (engineStep_contextValidStep s).resolve_left⟩

end Sys2Proof.Machine

/-! PROOFS. The digest registers as bytes (20_memory.md R63, 45_finalizer.md R234). -/

namespace Sys2Proof.Machine

/-- R61: byte `4i + j` of an array of registers is lane `j` of register `i`. -/
theorem laneByte_four_mul_add {n : Nat} (ws : Vector Word n) (i : Fin n) (j : Fin 4) :
    laneByte ws (4 * i.val + j.val) (by omega) = byteOf ws[i] j.val := by
  have hi : (4 * i.val + j.val) / 4 = i.val := by omega
  have hj : (4 * i.val + j.val) % 4 = j.val := by omega
  simp only [laneByte, hi, hj, Fin.getElem_fin]

/-- Digest register `i` carries the digest bytes `4i` to `4i + 3`, the first in its lowest lane. -/
theorem byteOf_extractDigest (hs : Vector Word 8) (ds : BitVec 6) (i : Fin 8) (j : Fin 4) :
    byteOf (extractDigest hs ds)[i] j.val = (digestBytes hs ds)[4 * i.val + j.val] := by
  simp only [extractDigest, Fin.getElem_fin, Vector.getElem_ofFn, byteOf_le32 _ _ _ _ j.isLt]
  obtain ⟨j, hj⟩ := j
  match j, hj with
  | 0, _ => simp
  | 1, _ => simp
  | 2, _ => simp
  | 3, _ => simp

/-- Settles O53. A byte of a digest register is a digest byte, and that is a byte of the final state or past `ds`. -/
theorem digestSerialization : Obligations.DigestSerialization := by
  intro hs ds i j
  rw [byteOf_extractDigest, ← laneByte_four_mul_add]
  simp only [digestBytes, Vector.getElem_ofFn]

end Sys2Proof.Machine

/-! PROOFS. The forms of access (20_memory.md R65, R66): what an unsupported access, a read and a write to another
register than CMD do. -/

namespace Sys2Proof.Machine

/-- R65: the supported accesses are the aligned 32-bit ones. -/
theorem Cycle.supported_eq_true {c : Cycle} : c.supported = true ↔ c.addr.toNat % 4 = 0 ∧ c.be = 0xF := by
  simp only [Cycle.supported, Bool.and_eq_true, decide_eq_true_eq, beq_iff_eq]

/-- R65: the unsupported accesses are the misaligned and the partial ones. -/
theorem Cycle.supported_eq_false {c : Cycle} : c.supported = false ↔ c.addr.toNat % 4 ≠ 0 ∨ c.be ≠ 0xF := by
  rw [← Bool.not_eq_true, Cycle.supported_eq_true, not_and_or]

theorem serveRead_of_unsupported {c : Cycle} (h : c.supported = false) (s : State) :
    serveRead c s = s.withOut { ready := true, rdata := some 0 } := by
  rw [serveRead, h, cond_false]

theorem serveWrite_of_unsupported {c : Cycle} (h : c.supported = false) (s : State) :
    serveWrite c s = .next (s.withOut { ready := true, rdata := none }) := by
  rw [serveWrite, h, cond_false]

theorem serveWrite_of_supported {c : Cycle} (h : c.supported = true) (s : State) :
    serveWrite c s = writeReg (regAt c.addr) c.wdata (s.withOut { ready := true, rdata := none }) := by
  rw [serveWrite, h, cond_true]

/-- Settles O16. -/
theorem unsupportedAccessesDoNothing : Obligations.UnsupportedAccessesDoNothing := by
  intro s c hsel hform
  have hsup : c.supported = false := Cycle.supported_eq_false.2 hform
  cases hwe : c.we
  · rw [serve_of_read hsel hwe, serveRead_of_unsupported hsup]
    rfl
  · rw [serve_of_write hsel hwe, serveWrite_of_unsupported hsup]
    rfl

/-! Reads (R66). -/

/-- A read writes at most the pins and the count of free values. -/
theorem serveRead_frame (c : Cycle) (s : State) :
    serveRead c s = (s.withDraws (serveRead c s).draws).withOut (serveRead c s).out := by
  unfold serveRead
  cases c.supported
  · rfl
  · cases readDraws (regAt c.addr) s <;> rfl

/-- A read that returns no free value writes the pins alone. -/
theorem serveRead_of_noDraw {c : Cycle} {s : State} (h : c.supported = false ∨ readDraws (regAt c.addr) s = false) :
    ∃ x, serveRead c s = s.withOut x := by
  cases hsup : c.supported
  · exact ⟨_, serveRead_of_unsupported hsup s⟩
  · have hdraw : readDraws (regAt c.addr) s = false := h.resolve_left (by simp [hsup])
    exact ⟨_, by rw [serveRead, hsup, hdraw]; rfl⟩

/-- A read does not look at the pins of the cycle before. -/
theorem serveRead_withOut (c : Cycle) (s : State) (x : Outputs) : serveRead c (s.withOut x) = serveRead c s := by
  have hdraw : readDraws (regAt c.addr) (s.withOut x) = readDraws (regAt c.addr) s := rfl
  simp only [serveRead, hdraw, readReg_withOut]
  cases c.supported
  · rfl
  · cases readDraws (regAt c.addr) s <;> rfl

/-- U3: only STATUS and the counter words read a free value, and only while a command runs on a context. -/
theorem readDraws_only_at_free_offsets {off : BitVec 8} {s : State} (ha : off.toNat % 4 = 0)
    (h : readDraws (regAt off) s = true) :
    s.busy = true ∧ s.status.ctxValid = true ∧ off ∈ [0x04, 0x60, 0x64] := by
  simp only [readDraws, State.readsFree, Bool.and_eq_true, Bool.or_eq_true, beq_iff_eq] at h
  obtain ⟨⟨hbusy, hctx⟩, hreg⟩ := h
  refine ⟨hbusy, hctx, ?_⟩
  obtain (hreg | hreg) | hreg := hreg
  · simp [regAt_injective (off := 0x04) (by decide) ha (by decide) hreg]
  · simp [regAt_injective (off := 0x60) (by decide) ha (by decide) hreg]
  · simp [regAt_injective (off := 0x64) (by decide) ha (by decide) hreg]

/-- R66: the reads that return no free value. -/
theorem noDraw_of_specified {c : Cycle} {s : State}
    (h : s.busy = false ∨ s.status.ctxValid = false ∨ c.addr ∉ [0x04, 0x60, 0x64] ∨ c.be ≠ 0xF) :
    c.supported = false ∨ readDraws (regAt c.addr) s = false := by
  by_contra hdraws
  simp only [not_or, Bool.not_eq_false] at hdraws
  obtain ⟨hsup, hdraw⟩ := hdraws
  obtain ⟨ha, hbe⟩ := Cycle.supported_eq_true.1 hsup
  obtain ⟨hbusy, hctx, hmem⟩ := readDraws_only_at_free_offsets ha hdraw
  rcases h with h | h | h | h
  · simp [hbusy] at h
  · simp [hctx] at h
  · exact h hmem
  · exact h hbe

/-- R42: two STATUS words that differ in BUFIDX alone agree above it and below it, where PCAUSE is the topmost field. -/
theorem statusBits_outside_bufIdx (bi bi' : BitVec 7) (st : Status) (busy : Bool) :
    (statusBits bi st busy).extractLsb' 0 16 = (statusBits bi' st busy).extractLsb' 0 16 ∧
      (statusBits bi st busy).extractLsb' 23 9 = (statusBits bi' st busy).extractLsb' 23 9 := by
  obtain ⟨-, -, -, -, hhigh⟩ := statusBits_fields bi st busy
  obtain ⟨-, -, -, -, hhigh'⟩ := statusBits_fields bi' st busy
  refine ⟨BitVec.eq_of_getLsbD_eq fun k hk => ?_, hhigh.trans hhigh'.symm⟩
  have hpcause : 0 + k - 1 - 1 - 1 - 1 - 4 - 4 < 4 := by omega
  simp only [statusBits, BitVec.getLsbD_extractLsb', BitVec.getLsbD_append, hpcause, if_true]

/-- A read leaves the STATUS word as it is but for BUFIDX. -/
theorem statusWord_serveRead_outside_bufIdx (c : Cycle) (s : State) :
    (serveRead c s).statusWord.extractLsb' 0 16 = s.statusWord.extractLsb' 0 16 ∧
      (serveRead c s).statusWord.extractLsb' 23 9 = s.statusWord.extractLsb' 23 9 := by
  rw [serveRead_frame]
  exact statusBits_outside_bufIdx _ _ s.status s.busy

/-! Writes (R66). -/

/-- A write to another register than CMD and STATUS is a store; a register that is no operand's stores nothing. -/
theorem writeReg_eq_storeOperand {reg : Reg} (hcmd : reg ≠ .cmd) (hstatus : reg ≠ .status) (w : Word) (s : State) :
    writeReg reg w s = .next (storeOperand reg w s) := by
  cases reg with
  | cmd => exact absurd rfl hcmd
  | status => exact absurd rfl hstatus
  | _ => rfl

/-- A write to an offset other than CMD's is ignored or stores, or it is STATUS's own write (R66). -/
theorem serveWrite_cases {c : Cycle} (hcmd : c.addr ≠ 0x00) (s : State) :
    (∃ regs, serveWrite c s = .next ((s.withRegs regs).withOut { ready := true, rdata := none }) ∧
      (c.addr = 0x04 → regs = s.regs)) ∨
    (c.addr = 0x04 ∧
      serveWrite c s = .next (writeStatus c.wdata (s.withOut { ready := true, rdata := none }))) := by
  cases hsup : c.supported
  · exact .inl ⟨s.regs, serveWrite_of_unsupported hsup s, fun _ => rfl⟩
  obtain ⟨ha, -⟩ := Cycle.supported_eq_true.1 hsup
  have hne : regAt c.addr ≠ .cmd := fun h => hcmd (regAt_injective (off := 0x00) (by decide) ha (by decide) h)
  rw [serveWrite_of_supported hsup]
  by_cases hstatus : regAt c.addr = .status
  · have haddr : c.addr = 0x04 := regAt_injective (by decide) ha (by decide) hstatus
    exact .inr ⟨haddr, by rw [hstatus]; rfl⟩
  · exact .inl ⟨_, writeReg_eq_storeOperand hne hstatus _ _, fun haddr => absurd (by rw [haddr]; rfl) hstatus⟩

/-- Settles O17. A read without a free value writes the pins alone, and no read looks at the pins; a write to STATUS
touches the error fields alone, and one to another offset the operand registers. -/
theorem onlyTwoWritesHaveSideEffects : Obligations.OnlyTwoWritesHaveSideEffects := by
  refine ⟨fun s c hsel hwe => ⟨_, serve_of_read hsel hwe s, serveRead_frame c s, fun h => ?_⟩,
    fun s t w w' hserve hw hw' => ?_, fun s c hsel hwe hcmd => ?_⟩
  · obtain ⟨x, heq⟩ := serveRead_of_noDraw (noDraw_of_specified h)
    rw [heq, serve_of_read hsel hwe, serveRead_withOut, heq]
    exact ⟨rfl, rfl⟩
  · rw [serve_of_read rfl rfl] at hserve
    cases hserve
    cases (reads_iff s 0x04 w).1 hw
    cases (reads_iff _ 0x04 w').1 hw'
    exact statusWord_serveRead_outside_bufIdx _ s
  · rw [serve_of_write hsel hwe]
    rcases serveWrite_cases hcmd s with ⟨regs, heq, hregs⟩ | ⟨haddr, heq⟩
    · refine ⟨_, heq, fun _ => rfl, fun haddr => ?_⟩
      rw [hregs haddr]
      rfl
    · refine ⟨_, heq, fun h => ?_, fun _ => ?_⟩
      · have hbit : c.wdata.getLsbD 3 = false := h.resolve_left (absurd haddr)
        rw [writeStatus, hbit]
        rfl
      · rw [writeStatus_eq_withStatus]
        rfl

end Sys2Proof.Machine

/-! PROOFS. The platform's window (20_memory.md R64). -/

namespace Sys2Proof.Machine

theorem windowOffset_base_add (off : BitVec 8) : windowOffset (Config.base + off.toNat) = some off := by
  have hin : Config.base ≤ Config.base + off.toNat ∧ Config.base + off.toNat < Config.base + 0x100 := by omega
  rw [windowOffset, if_pos hin, Nat.add_sub_cancel_left, BitVec.ofNat_toNat, BitVec.setWidth_eq]

theorem windowOffset_of_outside {a : Nat} (h : a < Config.base ∨ Config.base + 0x100 ≤ a) :
    windowOffset a = none := by
  rw [windowOffset, if_neg (by omega)]

/-- An access in the window is the engine's access at its offset. -/
theorem HostAccess.cycle_of_offset {a : HostAccess} {off : BitVec 8} (h : windowOffset a.addr = some off) (n : Nat) :
    a.cycle n =
      { rst := false, sel := true, we := a.we, addr := off, be := a.be, wdata := a.wdata, engineSteps := n } := by
  rw [HostAccess.cycle, h]

/-- An access outside the window does not select the engine. -/
theorem HostAccess.cycle_sel_of_outside {a : HostAccess} (h : windowOffset a.addr = none) (n : Nat) :
    (a.cycle n).sel = false := by
  rw [HostAccess.cycle, h]
  rfl

/-- Settles O18. -/
theorem windowSelectsTheEngine : Obligations.WindowSelectsTheEngine := by
  refine ⟨Nat.mul_mod_right 0x100 _, fun off we be wdata n => ?_, fun off v => ⟨?_, ?_⟩, fun a n h => ?_⟩
  · exact HostAccess.cycle_of_offset (windowOffset_base_add off) n
  · exact HostAccess.cycle_of_offset (windowOffset_base_add off) 1
  · exact HostAccess.cycle_of_offset (windowOffset_base_add off) 1
  · exact HostAccess.cycle_sel_of_outside (windowOffset_of_outside h) n

end Sys2Proof.Machine

/-! PROOFS. The decoder and the encoder (30_encoding.md R91 to R96). One characterisation of what decodes, by the three
fields of a word; the round trip, the legal words and the legality test follow from it. -/

namespace Sys2Proof.Machine

/-- R91: RSV, CNT and OP are all of a word. -/
theorem rsvField_append_cntField_append_opField (w : Word) : rsvField w ++ cntField w ++ opField w = w := by
  refine BitVec.eq_of_getLsbD_eq fun k hk => ?_
  simp only [rsvField, cntField, opField, BitVec.getLsbD_append, BitVec.getLsbD_extractLsb']
  split_ifs
  · simp [*]
  · simp [*, show 4 + (k - 4) = k by omega]
  · simp [show k - 4 - 3 < 25 by omega, show 7 + (k - 4 - 3) = k by omega]

/-- R91 to R93: the fields of an instruction's command word. -/
theorem fields_encode (i : Instr) : Laws.EncodedFields.Statement i := by
  cases i with
  | nop => exact Laws.EncodedFields.nop
  | init => exact Laws.EncodedFields.init
  | absorb cnt => exact Laws.EncodedFields.absorb cnt
  | digest => exact Laws.EncodedFields.digest

/-- A word is an instruction's command word exactly when its fields are the instruction's. -/
theorem eq_encode_iff (w : Word) (i : Instr) :
    w = encode i ↔ rsvField w = 0 ∧ cntField w = cntCode i ∧ opField w = opCode i := by
  constructor
  · rintro rfl
    exact fields_encode i
  · rintro ⟨hrsv, hcnt, hop⟩
    rw [← rsvField_append_cntField_append_opField w, hrsv, hcnt, hop]
    rfl

theorem withoutCount_eq_instr_iff {cnt : BitVec 3} {i j : Instr} :
    withoutCount cnt i = .instr j ↔ cnt = 0 ∧ i = j := by
  unfold withoutCount
  split_ifs with h
  · simp [h]
  · exact iff_of_false nofun fun ⟨h', _⟩ => h h'

theorem withCount_eq_instr_iff {cnt : BitVec 3} {j : Instr} :
    withCount cnt = .instr j ↔ cnt.toNat ≤ 4 ∧ .absorb cnt = j := by
  by_cases h : cnt.toNat ≤ 4 <;> simp [withCount, h]

/-- What the decoder accepts, and as what (R92, R93, R95). -/
theorem decode_eq_instr_iff (w : Word) (i : Instr) :
    decode w = .instr i ↔
      i.wellFormed = true ∧ rsvField w = 0 ∧ cntField w = cntCode i ∧ opField w = opCode i := by
  constructor
  · intro h
    unfold decode at h
    split_ifs at h with hrsv hnop hinit habsorb hdigest
    · obtain ⟨hcnt, rfl⟩ := withoutCount_eq_instr_iff.1 h
      exact ⟨rfl, not_not.1 hrsv, hcnt, hnop⟩
    · obtain ⟨hcnt, rfl⟩ := withoutCount_eq_instr_iff.1 h
      exact ⟨rfl, not_not.1 hrsv, hcnt, hinit⟩
    · obtain ⟨hcnt, rfl⟩ := withCount_eq_instr_iff.1 h
      exact ⟨decide_eq_true hcnt, not_not.1 hrsv, rfl, habsorb⟩
    · obtain ⟨hcnt, rfl⟩ := withoutCount_eq_instr_iff.1 h
      exact ⟨rfl, not_not.1 hrsv, hcnt, hdigest⟩
  · rintro ⟨hi, hrsv, hcnt, hop⟩
    unfold decode
    rw [hrsv, hcnt, hop]
    cases i with
    | nop => rfl
    | init => rfl
    | absorb cnt => exact withCount_eq_instr_iff.2 ⟨of_decide_eq_true hi, rfl⟩
    | digest => rfl

/-- A word decodes to an instruction exactly when the instruction is well-formed and the word is its command word. -/
theorem decode_eq_instr_iff_encode (w : Word) (i : Instr) :
    decode w = .instr i ↔ i.wellFormed = true ∧ w = encode i := by
  rw [decode_eq_instr_iff, eq_encode_iff]

/-- Settles O4. -/
theorem decodeAndEncodeAreInverse : Obligations.DecodeAndEncodeAreInverse := by
  refine ⟨fun i hi => (decode_eq_instr_iff_encode _ i).2 ⟨hi, rfl⟩, fun w i h => ?_⟩
  obtain ⟨hi, heq⟩ := (decode_eq_instr_iff_encode w i).1 h
  exact ⟨hi, heq.symm⟩

/-- The well-formed instructions (R92, R93). -/
theorem wellFormed_iff_mem (i : Instr) :
    i.wellFormed = true ↔
      i ∈ [Instr.nop, .init, .absorb 0, .absorb 1, .absorb 2, .absorb 3, .absorb 4, .digest] := by
  cases i with
  | absorb cnt => revert cnt; decide
  | _ => decide

/-- Settles O2. The legal words are the command words of the eight well-formed instructions. -/
theorem exactlyEightLegalWords : Obligations.ExactlyEightLegalWords := by
  intro w i
  rw [decode_eq_instr_iff_encode, wellFormed_iff_mem]
  constructor
  · rintro ⟨hi, rfl⟩
    simp only [List.mem_cons, List.not_mem_nil, or_false] at hi
    rcases hi with rfl | rfl | rfl | rfl | rfl | rfl | rfl | rfl <;> decide
  · intro hi
    simp only [List.mem_cons, List.not_mem_nil, or_false, Prod.mk.injEq] at hi
    rcases hi with ⟨rfl, rfl⟩ | ⟨rfl, rfl⟩ | ⟨rfl, rfl⟩ | ⟨rfl, rfl⟩ | ⟨rfl, rfl⟩ | ⟨rfl, rfl⟩ | ⟨rfl, rfl⟩ |
      ⟨rfl, rfl⟩ <;> decide

/-- The words that decode are those of the legality test (R95). -/
theorem decode_isInstr_iff_legalWord (w : Word) : (∃ i, decode w = .instr i) ↔ LegalWord w := by
  constructor
  · rintro ⟨i, h⟩
    obtain ⟨hi, rfl⟩ := (decode_eq_instr_iff_encode w i).1 h
    cases i with
    | absorb cnt => revert cnt; decide
    | _ => decide
  · rintro ⟨hrsv, hop, hcnt⟩
    simp only [decode_eq_instr_iff]
    simp only [List.mem_cons, List.not_mem_nil, or_false] at hop
    have hother : opField w ≠ 2 → cntField w = 0 := fun h => (hcnt.resolve_left fun ⟨h', _⟩ => h h').2
    rcases hop with hop | hop | hop | hop
    · exact ⟨.nop, rfl, hrsv, hother (by rw [opField, hop]; decide), hop⟩
    · exact ⟨.init, rfl, hrsv, hother (by rw [opField, hop]; decide), hop⟩
    · have hle : (cntField w).toNat ≤ 4 := (hcnt.resolve_right fun ⟨h', _⟩ => h' hop).2
      exact ⟨.absorb (cntField w), decide_eq_true hle, hrsv, rfl, hop⟩
    · exact ⟨.digest, rfl, hrsv, hother (by rw [opField, hop]; decide), hop⟩

/-- Settles O3. A word that fails the legality test is rejected by the decoder, by whatever name. -/
theorem illegalWordsAreRefused : Obligations.IllegalWordsAreRefused := by
  refine ⟨decode_isInstr_iff_legalWord, fun s w hb hw => ?_⟩
  cases hd : decode w with
  | instr i => exact absurd ((decode_isInstr_iff_legalWord w).1 ⟨i, hd⟩) hw
  | rejected why =>
    have hpins : (s.withOut { ready := true, rdata := none }).busy = false := hb
    rw [serve_cmd, present_of_rejected hd hpins]

/-- Settles O1. -/
theorem writtenOutWordsDecode : Obligations.WrittenOutWordsDecode := by
  unfold Obligations.WrittenOutWordsDecode
  decide

end Sys2Proof.Machine

/-! PROOFS. Runs of the controller while BUSY is 1 (46_command_control.md R254, R255), and the 81 steps from `C_LOAD` to
`C_OUT` (42_compression.md R170): one to load, eighty for the G calls. -/

namespace Sys2Proof.Machine

/-- The controller takes `n` steps from the first state to the second, each of them while BUSY is 1. -/
inductive BusyRun : Nat → State → State → Prop where
  | refl (s : State) : BusyRun 0 s s
  | step {n : Nat} {s t : State} : s.busy = true → BusyRun n (engineStep s) t → BusyRun (n + 1) s t

theorem BusyRun.single {s : State} (h : s.busy = true) : BusyRun 1 s (engineStep s) := .step h (.refl _)

theorem BusyRun.trans {m n : Nat} {s t u : State} (h : BusyRun m s t) (h' : BusyRun n t u) : BusyRun (m + n) s u := by
  induction h with
  | refl s => simpa using h'
  | step hb _ ih => exact Nat.add_right_comm _ n 1 ▸ .step hb (ih h')

theorem BusyRun.engineRun_eq {n : Nat} {s t : State} (h : BusyRun n s t) : engineRun n s = t := by
  induction h with
  | refl s => rfl
  | step _ _ ih => exact ih

theorem BusyRun.busy {n : Nat} {s t : State} (h : BusyRun n s t) {m : Nat} (hm : m < n) :
    (engineRun m s).busy = true := by
  induction h generalizing m with
  | refl s => omega
  | step hb _ ih =>
    cases m with
    | zero => exact hb
    | succ m => exact ih (by omega)

/-- The state in `C_G(r, j)` with working vector `v`. -/
def State.mixing (s : State) (r : Fin 10) (j : Fin 8) (v : Vector Word 16) : State :=
  (s.withDp { s.dp with v := v }).withCtrl { s.ctrl with ctl := .cG, r := r, j := j }

theorem engineStep_of_cLoad {s : State} (h : s.ctrl.ctl = .cLoad) : engineStep s = loadStep s := by
  rw [engineStep, h]

theorem engineStep_of_cG {s : State} (h : s.ctrl.ctl = .cG) : engineStep s = mixStep s := by
  rw [engineStep, h]

/-- A G call other than the last of its round. -/
theorem mixing_step (s : State) (r : Fin 10) {j : Nat} (hj : j < 7) (v : Vector Word 16) :
    BusyRun 1 (s.mixing r ⟨j, by omega⟩ v) (s.mixing r ⟨j + 1, by omega⟩ (mixCall s.dp.m r ⟨j, by omega⟩ v)) := by
  have heq : engineStep (s.mixing r ⟨j, by omega⟩ v) =
      s.mixing r ⟨j + 1, by omega⟩ (mixCall s.dp.m r ⟨j, by omega⟩ v) := by
    exact (engineStep_of_cG rfl).trans (dif_pos hj)
  exact heq ▸ .single rfl

theorem mixStep_of_lastCall {s : State} (hj : s.ctrl.j = 7) (hr : s.ctrl.r.val < 9) :
    mixStep s = (s.withDp { s.dp with v := mixCall s.dp.m s.ctrl.r s.ctrl.j s.dp.v }).withCtrl
      { s.ctrl with r := ⟨s.ctrl.r.val + 1, by omega⟩, j := 0 } := by
  simp [mixStep, hj, hr]

/-- The last G call of a round other than the last. -/
theorem mixing_step_last (s : State) {r : Nat} (hr : r < 9) (v : Vector Word 16) :
    BusyRun 1 (s.mixing ⟨r, by omega⟩ 7 v) (s.mixing ⟨r + 1, by omega⟩ 0 (mixCall s.dp.m ⟨r, by omega⟩ 7 v)) := by
  have heq : engineStep (s.mixing ⟨r, by omega⟩ 7 v) =
      s.mixing ⟨r + 1, by omega⟩ 0 (mixCall s.dp.m ⟨r, by omega⟩ 7 v) := by
    exact (engineStep_of_cG rfl).trans (mixStep_of_lastCall rfl hr)
  exact heq ▸ .single rfl

/-- The last G call of the last round. -/
theorem mixing_step_end (s : State) (v : Vector Word 16) :
    BusyRun 1 (s.mixing 9 7 v) (goto .cOut (s.mixing 9 7 (mixCall s.dp.m 9 7 v))) := .single rfl

/-- Folding over one index more. -/
theorem foldl_take_succ_finRange {α : Type} {n : Nat} (f : α → Fin n → α) (a : α) {k : Nat} (hk : k < n) :
    ((List.finRange n).take (k + 1)).foldl f a = f (((List.finRange n).take k).foldl f a) ⟨k, hk⟩ := by
  rw [List.take_add_one, List.getElem?_eq_getElem (by simpa using hk), List.foldl_append]
  simp

/-- The vector after the first `j` G calls of round `r`. -/
def mixCalls (m : Vector Word 16) (r : Fin 10) (j : Nat) (v : Vector Word 16) : Vector Word 16 :=
  ((List.finRange 8).take j).foldl (fun v j => mixCall m r j v) v

/-- The vector after the first `r` rounds. -/
def mixRounds (m : Vector Word 16) (r : Nat) (v : Vector Word 16) : Vector Word 16 :=
  ((List.finRange 10).take r).foldl (fun v r => mixRound m r v) v

theorem mixCalls_succ (m : Vector Word 16) (r : Fin 10) {j : Nat} (hj : j < 8) (v : Vector Word 16) :
    mixCalls m r (j + 1) v = mixCall m r ⟨j, hj⟩ (mixCalls m r j v) := foldl_take_succ_finRange _ v hj

theorem mixRounds_succ (m : Vector Word 16) {r : Nat} (hr : r < 10) (v : Vector Word 16) :
    mixRounds m (r + 1) v = mixRound m ⟨r, hr⟩ (mixRounds m r v) := foldl_take_succ_finRange _ v hr

theorem mixRound_eq_mixCalls (m : Vector Word 16) (r : Fin 10) (v : Vector Word 16) :
    mixRound m r v = mixCall m r 7 (mixCalls m r 7 v) := by
  have hall : (List.finRange 8).take 8 = List.finRange 8 := List.take_of_length_le (by simp)
  rw [mixRound, ← hall]
  exact mixCalls_succ m r (j := 7) (by decide) v

theorem rounds_eq_mixRounds (m v : Vector Word 16) : rounds m v = mixRound m 9 (mixRounds m 9 v) := by
  have hall : (List.finRange 10).take 10 = List.finRange 10 := List.take_of_length_le (by simp)
  rw [rounds, ← hall]
  exact mixRounds_succ m (r := 9) (by decide) v

theorem mixCalls_run (s : State) (r : Fin 10) (v : Vector Word 16) {j : Nat} (hj : j ≤ 7) :
    BusyRun j (s.mixing r 0 v) (s.mixing r ⟨j, by omega⟩ (mixCalls s.dp.m r j v)) := by
  induction j with
  | zero => exact .refl _
  | succ j ih =>
    rw [mixCalls_succ _ _ (by omega)]
    exact (ih (by omega)).trans (mixing_step s r (by omega) _)

/-- A round other than the last. -/
theorem mixRound_run (s : State) {r : Nat} (hr : r < 9) (v : Vector Word 16) :
    BusyRun 8 (s.mixing ⟨r, by omega⟩ 0 v) (s.mixing ⟨r + 1, by omega⟩ 0 (mixRound s.dp.m ⟨r, by omega⟩ v)) := by
  rw [mixRound_eq_mixCalls]
  exact (mixCalls_run s _ v (j := 7) (by decide)).trans (mixing_step_last s hr _)

theorem mixRounds_run (s : State) (v : Vector Word 16) {r : Nat} (hr : r ≤ 9) :
    BusyRun (8 * r) (s.mixing 0 0 v) (s.mixing ⟨r, by omega⟩ 0 (mixRounds s.dp.m r v)) := by
  induction r with
  | zero => exact .refl _
  | succ r ih =>
    rw [mixRounds_succ _ (by omega)]
    exact (ih (by omega)).trans (mixRound_run s (by omega) _)

/-- The ten rounds end in `C_OUT`. -/
theorem rounds_run (s : State) (v : Vector Word 16) :
    BusyRun 80 (s.mixing 0 0 v) (goto .cOut (s.mixing 9 7 (rounds s.dp.m v))) := by
  rw [rounds_eq_mixRounds, mixRound_eq_mixCalls]
  have hlast := (mixCalls_run s 9 (mixRounds s.dp.m 9 v) (j := 7) (by decide)).trans (mixing_step_end s _)
  exact (mixRounds_run s v (r := 9) (by decide)).trans hlast

theorem loadStep_eq_mixing (s : State) :
    loadStep s = (s.withDp { s.dp with m := blockWords s.blockSource }).mixing 0 0
      (initVector s.ctx.h s.counterSource s.dp.fin) := by
  simp only [loadStep, State.mixing, State.withDp, State.withCtrl]

/-- The state in `C_OUT` once the compression that starts in `s` has run its rounds (R170). -/
def State.compressed (s : State) : State :=
  goto .cOut ((s.withDp { s.dp with m := blockWords s.blockSource }).mixing 9 7
    (rounds (blockWords s.blockSource) (initVector s.ctx.h s.counterSource s.dp.fin)))

/-- From `C_LOAD` the controller is in `C_OUT` after 81 steps, with the working vector of R167. -/
theorem compression_run {s : State} (h : s.ctrl.ctl = .cLoad) : BusyRun 81 s s.compressed := by
  have hload : BusyRun 1 s (loadStep s) := engineStep_of_cLoad h ▸ .single (s.busy_eq_true.2 (by simp [h]))
  rw [loadStep_eq_mixing] at hload
  exact hload.trans (rounds_run _ _)

end Sys2Proof.Machine

/-! PROOFS. The commands run to their ends (46_command_control.md R255, R258): the byte loop of INIT and ABSORB is
`AbsorbByte` folded over the command's byte sequence (R193), and an accepted command leaves what the command-level
function gives, in its number of steps. -/

namespace Sys2Proof.Machine

/-! What is left of a compression when it ends (R170). -/

section
variable (s : State)

@[simp] theorem State.compressed_ctx : s.compressed.ctx = s.ctx := by
  simp [State.compressed, goto, State.mixing]
@[simp] theorem State.compressed_latches : s.compressed.latches = s.latches := by
  simp [State.compressed, goto, State.mixing]
@[simp] theorem State.compressed_status : s.compressed.status = s.status := by
  simp [State.compressed, goto, State.mixing]
@[simp] theorem State.compressed_dreg : s.compressed.dreg = s.dreg := by
  simp [State.compressed, goto, State.mixing]
@[simp] theorem State.compressed_ctl : s.compressed.ctrl.ctl = .cOut := by
  simp [State.compressed, goto, State.mixing]
@[simp] theorem State.compressed_k : s.compressed.ctrl.k = s.ctrl.k := by
  simp [State.compressed, goto, State.mixing]
@[simp] theorem State.compressed_caller : s.compressed.ctrl.caller = s.ctrl.caller := by
  simp [State.compressed, goto, State.mixing]
@[simp] theorem State.compressed_ret : s.compressed.ctrl.ret = s.ctrl.ret := by
  simp [State.compressed, goto, State.mixing]
@[simp] theorem State.compressed_hs : s.compressed.dp.hs = s.dp.hs := by
  simp [State.compressed, goto, State.mixing]
@[simp] theorem State.compressed_ts : s.compressed.dp.ts = s.dp.ts := by
  simp [State.compressed, goto, State.mixing]

theorem outWords_compressed :
    outWords s.ctx.h s.compressed.dp.v = compress s.ctx.h s.blockSource s.counterSource s.dp.fin := by
  simp [State.compressed, goto, State.mixing, compress]
end

/-- The byte loop's compression ends in the context's chaining state, and the loop's byte follows. -/
theorem outStep_compressed_of_byteLoop {s : State} (hcaller : s.ctrl.caller ≠ .digest) (hret : s.ctrl.ret = .byteTail) :
    outStep s.compressed =
      byteTail (s.compressed.withCtx { s.ctx with h := compress s.ctx.h s.ctx.buf s.ctx.t s.dp.fin }) := by
  have hout := outWords_compressed s
  cases hc : s.ctrl.caller with
  | init => simp [outStep, writeHdst, State.blockSource, State.counterSource, hc, hret, hout]
  | absorb => simp [outStep, writeHdst, State.blockSource, State.counterSource, hc, hret, hout]
  | digest => exact absurd hc hcaller

theorem engineStep_of_iSeed {s : State} (h : s.ctrl.ctl = .iSeed) : engineStep s = seedStep s := by
  rw [engineStep, h]

theorem engineStep_of_dOut {s : State} (h : s.ctrl.ctl = .dOut) : engineStep s = extractStep s := by
  rw [engineStep, h]

theorem engineStep_of_cOut {s : State} (h : s.ctrl.ctl = .cOut) : engineStep s = outStep s := by
  rw [engineStep, h]

/-- The compression of a full buffer takes 82 steps, and the last is `BYTE'(k)`'s too. -/
theorem byteCompression_run {s : State} (hc : s.ctrl.ctl = .cLoad) (hcaller : s.ctrl.caller ≠ .digest)
    (hret : s.ctrl.ret = .byteTail) :
    BusyRun 82 s
      (byteTail (s.compressed.withCtx { s.ctx with h := compress s.ctx.h s.ctx.buf s.ctx.t s.dp.fin })) := by
  rw [← outStep_compressed_of_byteLoop hcaller hret, ← engineStep_of_cOut s.compressed_ctl]
  exact (compression_run hc).trans (.single (s.compressed.busy_eq_true.2 (by simp)))

/-- DIGEST's compression ends in the snapshot. -/
theorem outStep_compressed_of_digest {s : State} (hcaller : s.ctrl.caller = .digest) (hret : s.ctrl.ret = .dOut) :
    outStep s.compressed = goto .dOut (s.compressed.withDp { s.compressed.dp with
      hs := compress s.ctx.h (padBlock s.ctx) s.dp.ts s.dp.fin }) := by
  have hout := outWords_compressed s
  simp [outStep, writeHdst, State.blockSource, State.counterSource, hcaller, hret, hout]

/-! The byte loop (R193). -/

/-- R193: the running command's byte sequence. -/
def State.sequence (s : State) : List Byte :=
  match s.ctrl.caller with
  | .init => (keyBlock s.latches.param s.latches.key).toList
  | .absorb => dataBytes s.latches.data s.latches.cnt
  | .digest => []

theorem sequence_length (s : State) : s.sequence.length = s.byteCount := by
  cases hc : s.ctrl.caller <;> simp [State.sequence, State.byteCount, dataBytes, hc]

theorem drop_sequence {s : State} (hk : s.ctrl.k.toNat < s.byteCount) :
    s.sequence.drop s.ctrl.k.toNat = s.commandByte :: s.sequence.drop (s.ctrl.k.toNat + 1) := by
  have hlt : s.ctrl.k.toNat < s.sequence.length := by rwa [sequence_length]
  rw [List.drop_eq_getElem_cons hlt]
  congr 1
  cases hc : s.ctrl.caller with
  | init =>
    have hk64 : s.ctrl.k.toNat < 64 := by simpa [State.byteCount, hc] using hk
    simp [State.sequence, State.commandByte, hc, hk64]
  | absorb => simp [State.sequence, State.commandByte, dataBytes, hc]
  | digest => simp [State.byteCount, hc] at hk

/-- What the byte loop keeps: the command with its operands, STATUS, the digest storage and the snapshot. -/
structure State.SameCommand (s t : State) : Prop where
  caller : t.ctrl.caller = s.ctrl.caller
  latches : t.latches = s.latches
  status : t.status = s.status
  dreg : t.dreg = s.dreg
  hs : t.dp.hs = s.dp.hs
  ts : t.dp.ts = s.dp.ts

theorem State.SameCommand.trans {s t u : State} (h : s.SameCommand t) (h' : t.SameCommand u) : s.SameCommand u :=
  ⟨h'.caller.trans h.caller, h'.latches.trans h.latches, h'.status.trans h.status, h'.dreg.trans h.dreg,
    h'.hs.trans h.hs, h'.ts.trans h.ts⟩

theorem State.SameCommand.sequence_eq {s t : State} (h : s.SameCommand t) : t.sequence = s.sequence := by
  simp only [State.sequence, h.caller, h.latches]

theorem State.SameCommand.byteCount_eq {s t : State} (h : s.SameCommand t) : t.byteCount = s.byteCount := by
  rw [← sequence_length, h.sequence_eq, sequence_length]

theorem engineStep_of_byte {s : State} (h : s.ctrl.ctl = .byte) : engineStep s = byteStep s := by
  rw [engineStep, h]

/-- With room in the buffer, `BYTE'(k)` is `AbsorbByte`. -/
theorem tailContext_of_room {c : Context} (h : c.full = false) (b : Byte) : tailContext b c = absorbByte c b := by
  simp [tailContext, absorbByte, h]

/-- After the compression of a full buffer, `BYTE'(k)` completes `AbsorbByte`. -/
theorem tailContext_of_compressed {c : Context} (h : c.full = true) (b : Byte) :
    tailContext b { advanceCounter c with h := compress c.h c.buf (c.t + 64) false } = absorbByte c b := by
  have hfull : Context.full { advanceCounter c with h := compress c.h c.buf (c.t + 64) false } = true := h
  rw [tailContext, hfull, absorbByte, h]
  rfl

/-- One byte of the loop: a step when the buffer has room, and 82 more for its compression when it is full. -/
theorem byte_run {s : State} (hc : s.ctrl.ctl = .byte) (hcaller : s.ctrl.caller ≠ .digest)
    (hk : s.ctrl.k.toNat < s.byteCount) :
    ∃ t, BusyRun (1 + 82 * (if s.ctx.bufIdx.toNat = 64 then 1 else 0)) s (byteNext t) ∧
      t.ctx = absorbByte s.ctx s.commandByte ∧ t.ctrl.k = s.ctrl.k ∧ s.SameCommand t := by
  have hfirst : BusyRun 1 s (byteStep s) := engineStep_of_byte hc ▸ .single (s.busy_eq_true.2 (by simp [hc]))
  cases hf : s.ctx.full
  · have hroom : s.ctx.bufIdx.toNat ≠ 64 := fun h => by simp [s.ctx.full_iff.2 h] at hf
    rw [byteStep_of_room hk hf, byteTail] at hfirst
    rw [if_neg hroom]
    exact ⟨_, hfirst, tailContext_of_room hf _, rfl, rfl, rfl, rfl, rfl, rfl, rfl⟩
  · rw [byteStep_of_full hk hf] at hfirst
    rw [if_pos (s.ctx.full_iff.1 hf)]
    have hrun := hfirst.trans (byteCompression_run rfl hcaller rfl)
    rw [byteTail] at hrun
    refine ⟨_, hrun, ?_, by simp, by simp, by simp, by simp, by simp, by simp, by simp⟩
    exact tailContext_of_compressed hf _

theorem byteNext_of_more {s : State} (h : s.ctrl.k.toNat + 1 < s.byteCount) :
    byteNext s = s.withCtrl { s.ctrl with ctl := .byte, k := s.ctrl.k + 1 } := if_pos h

theorem byteNext_of_last {s : State} (h : ¬ s.ctrl.k.toNat + 1 < s.byteCount) : byteNext s = byteDone s := if_neg h

/-- R194: the compressions of a first byte, and of the rest from the fill count it leaves. -/
theorem compressionCount_succ {i : Nat} (h : i ≤ 64) (n : Nat) :
    compressionCount i (n + 1) =
      (if i = 64 then 1 else 0) + compressionCount (if i = 64 then 1 else i + 1) n := by
  have hdiv : (64 + n) / 64 = 1 + n / 64 := by omega
  by_cases hi : i = 64 <;> by_cases hn : n = 0
  · simp [compressionCount, hi, hn]
  · simp [compressionCount, hi, hn, hdiv]
  · simp [compressionCount, hi, hn]
    omega
  · have hsub : i + 1 + n - 1 = i + n := by omega
    simp [compressionCount, hi, hn, hsub]

/-- The loop from byte `k` to its end. -/
theorem byteLoop_run {n : Nat} {s : State} (hc : s.ctrl.ctl = .byte) (hcaller : s.ctrl.caller ≠ .digest)
    (hbuf : s.ctx.bufIdx.toNat ≤ 64) (hn : s.ctrl.k.toNat + (n + 1) = s.byteCount) :
    ∃ t, BusyRun (n + 1 + 82 * compressionCount s.ctx.bufIdx.toNat (n + 1)) s (byteDone t) ∧
      t.ctx = absorbBytes (s.sequence.drop s.ctrl.k.toNat) s.ctx ∧ s.SameCommand t := by
  induction n generalizing s with
  | zero =>
    obtain ⟨t, hrun, hctx, hkt, hsame⟩ := byte_run hc hcaller (by omega)
    have hlast : ¬ t.ctrl.k.toNat + 1 < t.byteCount := by rw [hkt, hsame.byteCount_eq]; omega
    have hend : s.sequence.drop (s.ctrl.k.toNat + 1) = [] :=
      List.drop_eq_nil_of_le (by rw [sequence_length]; omega)
    rw [byteNext_of_last hlast] at hrun
    rw [drop_sequence (by omega), hend, compressionCount_succ hbuf]
    exact ⟨t, hrun, hctx, hsame⟩
  | succ n ih =>
    obtain ⟨t, hrun, hctx, hkt, hsame⟩ := byte_run hc hcaller (by omega)
    have hmore : t.ctrl.k.toNat + 1 < t.byteCount := by rw [hkt, hsame.byteCount_eq]; omega
    have hk : (t.ctrl.k + 1).toNat = s.ctrl.k.toNat + 1 := by
      have := byteCount_le s
      rw [hkt, BitVec.toNat_add]
      simp
      omega
    have hidx := absorbByte_bufIdx hbuf s.commandByte
    rw [byteNext_of_more hmore] at hrun
    generalize hnext : t.withCtrl { t.ctrl with ctl := .byte, k := t.ctrl.k + 1 } = u at hrun
    have hnextctx : u.ctx = absorbByte s.ctx s.commandByte := by rw [← hnext]; exact hctx
    have hsame' : s.SameCommand u := by
      rw [← hnext]
      exact ⟨hsame.caller, hsame.latches, hsame.status, hsame.dreg, hsame.hs, hsame.ts⟩
    have hku : u.ctrl.k.toNat = s.ctrl.k.toNat + 1 := by rw [← hnext]; exact hk
    obtain ⟨v, hrest, hvctx, hvsame⟩ := ih (s := u) (by rw [← hnext]; rfl) (by rw [hsame'.caller]; exact hcaller)
      (by rw [hnextctx, hidx]; split <;> omega) (by rw [hsame'.byteCount_eq, hku]; omega)
    refine ⟨v, ?_, ?_, hsame'.trans hvsame⟩
    · rw [hnextctx, hidx] at hrest
      have hall := hrun.trans hrest
      rw [compressionCount_succ hbuf]
      convert hall using 1
      omega
    · rw [hvctx, hsame'.sequence_eq, hku, hnextctx, drop_sequence (s := s) (by omega), absorbBytes_cons]

/-! The commands. -/

theorem BusyRun.host_eq {n : Nat} {s t : State} (h : BusyRun n s t) : t.host = s.host :=
  h.engineRun_eq ▸ engineRun_host n s

theorem BusyRun.latches_eq {n : Nat} {s t : State} (h : BusyRun n s t) : t.latches = s.latches :=
  h.engineRun_eq ▸ engineRun_latches n s

/-- A run never writes the host's part or the latches, so an end state is settled by what is left. -/
theorem BusyRun.sameArchitecture {n : Nat} {s t u : State} (h : BusyRun n s t) (hhost : s.host = u.host)
    (hlatches : s.latches = u.latches) (hctx : t.ctx = u.ctx) (hctl : t.ctrl.ctl = u.ctrl.ctl)
    (hvalid : t.status.ctxValid = u.status.ctxValid) (hdvalid : t.status.dvalid = u.status.dvalid)
    (hdreg : t.dreg = u.dreg) : t.SameArchitecture u := by
  have ht := h.host_eq.trans hhost
  simp only [State.host, HostPart.mk.injEq] at ht
  obtain ⟨hregs, herr, hcode, hcause, hout, hinputs, hdraws⟩ := ht
  have hstatus : t.status = u.status := by
    cases hts : t.status
    cases hus : u.status
    simp_all
  exact ⟨hctx, hctl, h.latches_eq.trans hlatches, hregs, hstatus, hdreg, hout, hinputs, hdraws⟩

/-- DIGEST, once accepted (R230 to R234): a step for the snapshot, 82 for its compression, and one
for the extraction. -/
theorem acceptDigest_run {s : State} (hidle : s.ctrl.ctl = .idle) :
    ∃ u, BusyRun 84 (acceptDigest s) u ∧ u.SameArchitecture (commandDigest s) := by
  have hsnap : BusyRun 1 (acceptDigest s) (snapStep (acceptDigest s)) := .single rfl
  generalize hload : snapStep (acceptDigest s) = t at hsnap
  obtain ⟨hctl, hcaller, hret, hctx, hfin, hts, hvalid⟩ : t.ctrl.ctl = .cLoad ∧ t.ctrl.caller = .digest ∧
      t.ctrl.ret = .dOut ∧ t.ctx = s.ctx ∧ t.dp.fin = true ∧ t.dp.ts = snapshotCounter s.ctx ∧
      t.status.ctxValid = s.status.ctxValid := by
    rw [← hload]
    exact ⟨rfl, rfl, rfl, rfl, rfl, rfl, rfl⟩
  have hout : BusyRun 1 t.compressed (outStep t.compressed) :=
    engineStep_of_cOut t.compressed_ctl ▸ .single (t.compressed.busy_eq_true.2 (by simp))
  rw [outStep_compressed_of_digest hcaller hret, hctx, hts, hfin] at hout
  have hrun := ((hsnap.trans (compression_run hctl)).trans hout).trans (.single rfl)
  rw [engineStep_of_dOut rfl] at hrun
  refine ⟨_, hrun, hrun.sameArchitecture rfl rfl ?_ ?_ ?_ rfl ?_⟩
  · simp [extractStep, goto, hctx, commandDigest]
  · simp [extractStep, goto, hidle, commandDigest]
  · simp [extractStep, goto, hvalid, commandDigest]
  · simp [extractStep, goto, hctx, commandDigest, finalState]

theorem commandInit_of_ok {s : State} (hp : paramOK s.regs.param = true) :
    commandInit s = setCtxValid true ((setCtxValid false (clearDvalid (latchInit s))).withCtx
      (initContext (latchInit s).latches s.ctx)) := by
  have hp' : paramOK (setCtxValid false (clearDvalid (latchInit s))).latches.param = true := hp
  rw [commandInit, hp']
  rfl

theorem commandInit_of_bad {s : State} (hp : paramOK s.regs.param = false) :
    commandInit s = raiseError .param (pcauseOf s.regs.param) (setCtxValid false (clearDvalid (latchInit s))) := by
  have hp' : paramOK (setCtxValid false (clearDvalid (latchInit s))).latches.param = false := hp
  rw [commandInit, hp']
  rfl

/-- INIT's byte loop absorbs the key block, without a compression (R212, R213). -/
theorem keyBlockLoop_run {s : State} (hc : s.ctrl.ctl = .byte) (hcaller : s.ctrl.caller = .init) (hk : s.ctrl.k = 0)
    (hbuf : s.ctx.bufIdx = 0) :
    ∃ t, BusyRun 64 s (initDone t) ∧ t.ctx = absorbBytes (keyBlock s.latches.param s.latches.key).toList s.ctx ∧
      s.SameCommand t := by
  have hcount : s.byteCount = 64 := by simp [State.byteCount, hcaller]
  obtain ⟨t, hrun, hctx, ht⟩ := byteLoop_run (n := 63) hc (by simp [hcaller]) (by simp [hbuf]) (by simp [hk, hcount])
  have hseq : s.sequence = (keyBlock s.latches.param s.latches.key).toList := by simp [State.sequence, hcaller]
  rw [byteDone_of_init (ht.caller.trans hcaller), hbuf] at hrun
  rw [hk, hseq] at hctx
  exact ⟨t, hrun, hctx, ht⟩

/-- INIT, once accepted (R210 to R213): refused parameters end it at once; valid ones take a step to seed the context,
and the 64 of the key block if there is a key. -/
theorem acceptInit_run {s : State} (hidle : s.ctrl.ctl = .idle) :
    ∃ u, BusyRun (commandSteps .init s) (acceptInit s) u ∧ u.SameArchitecture (commandInit s) := by
  cases hp : paramOK s.regs.param
  · have hsteps : commandSteps .init s = 0 := by simp [commandSteps, hp]
    rw [hsteps, acceptInit_of_bad hp, commandInit_of_bad hp]
    exact ⟨_, .refl _, rfl, rfl, rfl, rfl, rfl, rfl, rfl, rfl, rfl⟩
  rw [acceptInit_of_ok hp, commandInit_of_ok hp]
  generalize hinit : (setCtxValid false (clearDvalid (latchInit s))).withCtrl
    { s.ctrl with ctl := .iSeed, caller := .init } = t
  obtain ⟨hctl, hcaller, hlatches, hctx, hdreg, hhost, hdvalid⟩ : t.ctrl.ctl = .iSeed ∧ t.ctrl.caller = .init ∧
      t.latches = (latchInit s).latches ∧ t.ctx = s.ctx ∧ t.dreg = s.dreg ∧ t.host = s.host ∧
      t.status.dvalid = false := by
    rw [← hinit]
    exact ⟨rfl, rfl, rfl, rfl, rfl, rfl, rfl⟩
  have hseed : BusyRun 1 t (seedStep t) := engineStep_of_iSeed hctl ▸ .single (t.busy_eq_true.2 (by simp [hctl]))
  by_cases hkl : klField s.regs.param = 0
  · have hsteps : commandSteps .init s = 1 := by simp [commandSteps, hp, hkl]
    have hkey : hasKey (latchInit s).latches = false := by simp [hasKey, latchInit, hkl]
    rw [seedStep_of_noKey (hlatches ▸ hkey)] at hseed
    rw [hsteps]
    refine ⟨_, hseed, hseed.sameArchitecture hhost hlatches ?_ hidle.symm rfl hdvalid hdreg⟩
    simp [initDone, goto, setCtxValid, initContext, hkey, hlatches, hctx]
  · have hsteps : commandSteps .init s = 1 + 64 := by simpa [commandSteps, hp] using hkl
    have hkey : hasKey (latchInit s).latches = true := by simpa [hasKey, latchInit] using hkl
    rw [seedStep_of_hasKey (hlatches ▸ hkey)] at hseed
    obtain ⟨v, hloop, hvctx, hv⟩ := keyBlockLoop_run (s := (t.withCtx (seedContext t.latches t.ctx)).withCtrl
      { t.ctrl with ctl := .byte, k := 0 }) rfl hcaller rfl rfl
    have hrun := hseed.trans hloop
    rw [hsteps]
    refine ⟨_, hrun, hrun.sameArchitecture hhost hlatches ?_ hidle.symm rfl ?_ ?_⟩
    · simp [initDone, goto, setCtxValid, initContext, hkey, hvctx, hlatches, hctx]
    · simp [initDone, goto, setCtxValid, hv.status, hdvalid, clearDvalid]
    · simp [initDone, goto, setCtxValid, hv.dreg, hdreg, clearDvalid, latchInit]

/-- ABSORB, once accepted (R195): its bytes, or the one step of an empty sequence (log entry 7). -/
theorem acceptAbsorb_run {s : State} (hidle : s.ctrl.ctl = .idle) (hbuf : s.ctx.bufIdx.toNat ≤ 64) (cnt : BitVec 3) :
    ∃ u, BusyRun (commandSteps (.absorb cnt) s) (acceptAbsorb cnt s) u ∧
      u.SameArchitecture (commandAbsorb cnt s) := by
  have hcount : (acceptAbsorb cnt s).byteCount = cnt.toNat := rfl
  cases hn : cnt.toNat with
  | zero =>
    have hrun : BusyRun 1 (acceptAbsorb cnt s) (byteStep (acceptAbsorb cnt s)) := .single rfl
    rw [byteStep_of_end (by simp [hcount, hn]), byteDone_of_absorb rfl] at hrun
    have hsteps : commandSteps (.absorb cnt) s = 1 := by simp [commandSteps, compressionCount, hn]
    have hbytes : dataBytes s.regs.data cnt = [] := by simp [dataBytes, hn]
    rw [hsteps]
    refine ⟨_, hrun, hrun.sameArchitecture rfl rfl ?_ hidle.symm rfl rfl rfl⟩
    show s.ctx = absorbBytes (dataBytes s.regs.data cnt) s.ctx
    rw [hbytes, absorbBytes_nil]
  | succ n =>
    obtain ⟨v, hrun, hvctx, hv⟩ := byteLoop_run (s := acceptAbsorb cnt s) (n := n) rfl nofun hbuf
      (by rw [hcount, hn]; exact Nat.zero_add _)
    have hsteps : commandSteps (.absorb cnt) s = n + 1 + 82 * compressionCount s.ctx.bufIdx.toNat (n + 1) := by
      simp [commandSteps, hn]
    rw [byteDone_of_absorb hv.caller] at hrun
    rw [hsteps]
    refine ⟨_, hrun, hrun.sameArchitecture rfl rfl hvctx hidle.symm ?_ ?_ hv.dreg⟩
    · exact congrArg Status.ctxValid hv.status
    · exact congrArg Status.dvalid hv.status

/-- R251: a command that passes its checks has its effect. -/
theorem exec_of_accepted {i : Instr} {s : State} (ha : CommandAccepted i s) : exec i s = .next (commandEffect i s) := by
  obtain ⟨hidle, hcnt, hctx⟩ := ha
  have hb := s.busy_eq_false.2 hidle
  cases i with
  | nop => exact congrArg _ (accepting_of_ok (needsCtx := false) hb rfl nofun fun s => s)
  | init => exact congrArg _ (accepting_of_ok (needsCtx := false) hb rfl nofun _)
  | absorb cnt => exact congrArg _ (accepting_of_ok hb (decide_eq_true (hcnt cnt rfl)) (fun _ => hctx nofun nofun) _)
  | digest => exact congrArg _ (accepting_of_ok hb rfl (fun _ => hctx nofun nofun) _)

/-! R258: at the command level an accepted command is its effect without the acceptance checks. -/

section
variable {s : State} (hb : s.busy = false)
include hb

theorem commandLevel_nop : commandLevel .nop s = s := accepting_of_ok (needsCtx := false) hb rfl nofun fun s => s

theorem commandLevel_init : commandLevel .init s = commandInit s := accepting_of_ok (needsCtx := false) hb rfl nofun _

theorem commandLevel_absorb (hv : s.status.ctxValid = true) {cnt : BitVec 3} (hcnt : cnt.toNat ≤ 4) :
    commandLevel (.absorb cnt) s = commandAbsorb cnt s :=
  accepting_of_ok hb (decide_eq_true hcnt) (fun _ => hv) _

theorem commandLevel_digest (hv : s.status.ctxValid = true) : commandLevel .digest s = commandDigest s :=
  accepting_of_ok hb rfl (fun _ => hv) _
end

/-- R255, R258: an accepted command runs, BUSY all the way, to what the command-level function gives. -/
theorem commandEffect_run {i : Instr} {s : State} (ha : CommandAccepted i s)
    (hbuf : ∀ cnt, i = .absorb cnt → s.ctx.bufIdx.toNat ≤ 64) :
    ∃ u, BusyRun (commandSteps i s) (commandEffect i s) u ∧ u.SameArchitecture (commandLevel i s) := by
  obtain ⟨hidle, hcnt, hctx⟩ := ha
  have hb := s.busy_eq_false.2 hidle
  cases i with
  | nop =>
    rw [commandLevel_nop hb]
    exact ⟨s, .refl s, rfl, rfl, rfl, rfl, rfl, rfl, rfl, rfl, rfl⟩
  | init =>
    rw [commandLevel_init hb]
    exact acceptInit_run hidle
  | absorb cnt =>
    rw [commandLevel_absorb hb (hctx nofun nofun) (hcnt cnt rfl)]
    exact acceptAbsorb_run hidle (hbuf cnt rfl) cnt
  | digest =>
    rw [commandLevel_digest hb (hctx nofun nofun)]
    exact acceptDigest_run hidle

end Sys2Proof.Machine

/-! PROOFS. The host program CREATE and GETDIGEST (30_encoding.md R98, R99; 70_reset_and_hazards.md R304): what each
statement of a session does, and the program as their sequence. -/

namespace Sys2Proof.Machine

/-! Sessions. -/

/-- The session gets from the first state to the second in some number of bus cycles. -/
def Session.Reaches (x y : Session) : Prop := ∃ n, sessionRun n x = .next y

theorem Session.Reaches.refl (x : Session) : x.Reaches x := ⟨0, rfl⟩

theorem Session.Reaches.head {x y z : Session} (h : sessionStep x = .next y) (hz : y.Reaches z) : x.Reaches z := by
  obtain ⟨n, hn⟩ := hz
  exact ⟨n + 1, by rw [sessionRun, h]; exact hn⟩

theorem Session.Reaches.trans {x y z : Session} (h : x.Reaches y) (hz : y.Reaches z) : x.Reaches z := by
  obtain ⟨n, hn⟩ := h
  induction n generalizing x with
  | zero =>
    cases hn
    exact hz
  | succ n ih =>
    rw [sessionRun] at hn
    cases hstep : sessionStep x with
    | next x' =>
      rw [hstep] at hn
      exact .head hstep (ih hn)
    | fault r => cases r
    | refused r =>
      rw [hstep] at hn
      cases hn

/-- The state of an engine in which a write access of the session's next cycle acts. -/
def State.written (e : State) : State := (e.withInputs []).withOut { ready := true, rdata := none }

/-- A statement's cycle, and what it leaves to run and adds to the results. -/
theorem sessionStep_of_cycle {st : HostStmt} {e t : State} (h : cycle st.cycle (e.withInputs []) = .next t)
    (rest : List HostStmt) (rs : List Word) :
    sessionStep ⟨e, st :: rest, rs⟩ =
      .next ⟨t, st.remaining rest t.out.rdata, rs ++ st.result t.out.rdata⟩ := by
  have hstep : step (e.withInputs [st.cycle]) = .next t := h
  simp only [sessionStep, hstep]

/-- The statements whose cycle is a write: all but RD and WAIT (R98). -/
theorem sessionStep_of_write {st : HostStmt} {off : BitVec 8} {w : Word} (hst : st.cycle = Cycle.write off w)
    (ha : off.toNat % 4 = 0) {e t : State} (hb : e.busy = false) (h : writeReg (regAt off) w e.written = .next t)
    (rest : List HostStmt) (rs : List Word) :
    sessionStep ⟨e, st :: rest, rs⟩ = .next ⟨t, rest, rs⟩ := by
  have hb' : (e.withInputs []).busy = false := hb
  have hcycle : cycle st.cycle (e.withInputs []) = .next t := by
    rw [hst, cycle_of_running rfl, serve_write ha, hb']
    exact onNext_eq_next.2 ⟨t, h, rfl⟩
  have hstep := sessionStep_of_cycle hcycle rest rs
  cases st with
  | rd off' => simp [HostStmt.cycle, Cycle.read, Cycle.write] at hst
  | wait => simp [HostStmt.cycle, Cycle.read, Cycle.write] at hst
  | _ => simpa [HostStmt.remaining, HostStmt.result] using hstep

/-! WAIT (R98). -/

/-- The states differ at most in the pins, the inputs and the count of free values: in what reading may change. -/
def State.UpToPins (s t : State) : Prop :=
  ∃ out inputs draws, t = s.withHost { s.host with out := out, inputs := inputs, draws := draws }

theorem State.upToPins_refl (s : State) : s.UpToPins s := ⟨_, _, _, rfl⟩

theorem State.UpToPins.trans {s t u : State} (h : s.UpToPins t) (h' : t.UpToPins u) : s.UpToPins u := by
  obtain ⟨_, _, _, rfl⟩ := h
  obtain ⟨_, _, _, rfl⟩ := h'
  exact ⟨_, _, _, rfl⟩

theorem State.UpToPins.busy_eq {s t : State} (h : s.UpToPins t) : t.busy = s.busy := by
  obtain ⟨_, _, _, rfl⟩ := h
  rfl

theorem State.UpToPins.engineStep {s t : State} (h : s.UpToPins t) : (engineStep s).UpToPins (engineStep t) := by
  obtain ⟨out, inputs, draws, rfl⟩ := h
  exact ⟨out, inputs, draws, (engineStep_withHost s _).trans (by rw [engineStep_host])⟩

theorem serveRead_upToPins (c : Cycle) (s : State) : s.UpToPins (serveRead c s) :=
  ⟨_, s.inputs, _, serveRead_frame c s⟩

theorem withInputs_upToPins (s : State) (inputs : List Cycle) : s.UpToPins (s.withInputs inputs) :=
  ⟨s.out, inputs, s.draws, rfl⟩

/-- R98: WAIT repeats while its poll reads BUSY = 1. -/
theorem wait_remaining (rest : List HostStmt) (s : State) :
    HostStmt.wait.remaining rest (some s.statusWord) = bif s.busy then .wait :: rest else rest := by
  have hbusy : s.statusWord.getLsbD 0 = s.busy := (statusBits_flags _ _ _).1
  rw [← hbusy]
  rfl

section
variable (e : State) (rest : List HostStmt) (rs : List Word)

/-- One poll of WAIT: STATUS is read, and a running command takes its step. -/
theorem sessionStep_wait : ∃ t, (bif e.busy then engineStep e else e).UpToPins t ∧
    sessionStep ⟨e, .wait :: rest, rs⟩ = .next ⟨t, bif e.busy then .wait :: rest else rest, rs⟩ := by
  have hread := (withInputs_upToPins e []).trans (serveRead_upToPins (Cycle.read 0x04) _)
  have hcycle : cycle HostStmt.wait.cycle (e.withInputs []) = .next (bif e.busy then
      engineRun 1 (serveRead (Cycle.read 0x04) (e.withInputs []))
      else serveRead (Cycle.read 0x04) (e.withInputs [])) := by
    rw [cycle_of_running rfl, serve_of_read rfl rfl]
    rfl
  have hrdata : (serveRead (Cycle.read 0x04) (e.withInputs [])).out.rdata = some (e.withInputs []).statusWord := rfl
  rw [sessionStep_of_cycle hcycle]
  cases hb : e.busy
  · refine ⟨_, hread, ?_⟩
    rw [cond_false, hrdata, wait_remaining, State.withInputs_busy, hb]
    simp [HostStmt.result]
  · refine ⟨_, hread.engineStep, ?_⟩
    rw [cond_true, engineRun_out, hrdata, wait_remaining, State.withInputs_busy, hb]
    simp [HostStmt.result, engineRun]
end

/-- WAIT polls until the running command is at its end. -/
theorem wait_reaches {n : Nat} {s u : State} (h : BusyRun n s u) (hu : u.busy = false) {e : State} (he : s.UpToPins e)
    (rest : List HostStmt) (rs : List Word) :
    ∃ e', Session.Reaches ⟨e, .wait :: rest, rs⟩ ⟨e', rest, rs⟩ ∧ u.UpToPins e' := by
  induction h generalizing e with
  | refl s =>
    obtain ⟨t, ht, hstep⟩ := sessionStep_wait e rest rs
    rw [he.busy_eq.trans hu] at ht hstep
    exact ⟨t, .head hstep (.refl _), he.trans ht⟩
  | step hb _ ih =>
    obtain ⟨t, ht, hstep⟩ := sessionStep_wait e rest rs
    rw [he.busy_eq.trans hb] at ht hstep
    obtain ⟨e', hreach, he'⟩ := ih hu (he.engineStep.trans ht)
    exact ⟨e', .head hstep hreach, he'⟩

end Sys2Proof.Machine

/-! PROOFS. The host program CREATE, GETDIGEST (30_encoding.md R99): its operand stores, a command with its WAIT, the
absorption of the message and the reads of the digest; and the program. -/

namespace Sys2Proof.Machine

/-! Operand stores. -/

/-- The offset names a register other than CMD and STATUS. -/
abbrev StoreOffset (off : BitVec 8) : Prop := off.toNat % 4 = 0 ∧ regAt off ≠ .cmd ∧ regAt off ≠ .status

/-- A list of stores at rest writes the operand registers, in order. -/
theorem stores_reach (ps : List (BitVec 8 × Word)) (hps : ∀ p ∈ ps, StoreOffset p.1) {e : State} (hb : e.busy = false)
    (rest : List HostStmt) (rs : List Word) :
    ∃ e', Session.Reaches ⟨e, ps.map (fun p => .wr p.1 p.2) ++ rest, rs⟩ ⟨e', rest, rs⟩ ∧
      e'.busy = false ∧ e'.ctx = e.ctx ∧ e'.regs = ps.foldl (fun r p => storeReg (regAt p.1) p.2 r) e.regs := by
  induction ps generalizing e with
  | nil => exact ⟨e, .refl _, hb, rfl, rfl⟩
  | cons p ps ih =>
    obtain ⟨ha, hcmd, hstatus⟩ := hps p (List.mem_cons_self ..)
    have hstore := writeReg_eq_storeOperand hcmd hstatus p.2 e.written
    have hstep := sessionStep_of_write (st := .wr p.1 p.2) rfl ha hb hstore
      (ps.map (fun p => .wr p.1 p.2) ++ rest) rs
    obtain ⟨e', hreach, he'⟩ := ih (fun q hq => hps q (List.mem_cons_of_mem p hq))
      (e := storeOperand (regAt p.1) p.2 e.written) hb
    exact ⟨e', .head hstep hreach, he'⟩

/-! Commands. -/

/-- The states agree in what a command leaves for the host and for later commands, the pins apart. -/
structure State.SameResult (s t : State) : Prop where
  ctx : s.ctx = t.ctx
  busy : s.busy = t.busy
  regs : s.regs = t.regs
  status : s.status = t.status
  dreg : s.dreg = t.dreg

theorem State.SameArchitecture.sameResult {u t e : State} (h : u.SameArchitecture t) (he : u.UpToPins e) :
    e.SameResult t := by
  obtain ⟨out, inputs, draws, rfl⟩ := he
  obtain ⟨hctx, hctl, -, hregs, hstatus, hdreg, -⟩ := h
  exact ⟨hctx, congrArg (· != Ctl.idle) hctl, hregs, hstatus, hdreg⟩

/-- A command accepted at rest, and the WAIT after it, leave what the command-level function gives on the state of the
CMD write. -/
theorem command_reaches {st : HostStmt} {w : Word} {i : Instr} (hst : st.cycle = Cycle.write 0x00 w)
    (hdecode : decode w = .instr i) {e : State} (ha : CommandAccepted i e)
    (hbuf : ∀ cnt, i = .absorb cnt → e.ctx.bufIdx.toNat ≤ 64) (hrest : (commandLevel i e.written).busy = false)
    (rest : List HostStmt) (rs : List Word) :
    ∃ e', Session.Reaches ⟨e, st :: .wait :: rest, rs⟩ ⟨e', rest, rs⟩ ∧ e'.SameResult (commandLevel i e.written) := by
  have hb := e.busy_eq_false.2 ha.idle
  have ha' : CommandAccepted i e.written := ⟨ha.idle, ha.absorbCount, ha.context⟩
  obtain ⟨u, hrun, hu⟩ := commandEffect_run ha' hbuf
  have hwrite : writeReg (regAt 0x00) w e.written = .next (commandEffect i e.written) :=
    (present_of_instr hdecode _).trans (exec_of_accepted ha')
  have hubusy : u.busy = false := (hu.sameResult u.upToPins_refl).busy.trans hrest
  obtain ⟨e', hreach, he'⟩ := wait_reaches hrun hubusy (State.upToPins_refl _) rest rs
  exact ⟨e', .head (sessionStep_of_write hst (by decide) hb hwrite _ _) hreach, hu.sameResult he'⟩

/-- INIT and its WAIT, on valid parameters. -/
theorem init_reaches {e : State} (hb : e.busy = false) (hp : paramOK e.regs.param = true) (rest : List HostStmt)
    (rs : List Word) :
    ∃ e', Session.Reaches ⟨e, .init :: .wait :: rest, rs⟩ ⟨e', rest, rs⟩ ∧ e'.busy = false ∧
      e'.status.ctxValid = true ∧ e'.ctx = initContext (latchInit e).latches e.ctx := by
  have hlevel : commandLevel .init e.written = _ := (commandLevel_init (s := e.written) hb).trans (commandInit_of_ok hp)
  have ha : CommandAccepted .init e := ⟨e.busy_eq_false.1 hb, nofun, fun _ h => absurd rfl h⟩
  obtain ⟨e', hreach, he'⟩ := command_reaches (st := .init) rfl (w := 0x00000001) rfl ha nofun
    (by rw [hlevel]; exact hb) rest rs
  rw [hlevel] at he'
  exact ⟨e', hreach, he'.busy.trans hb, congrArg Status.ctxValid he'.status, he'.ctx⟩

/-- A valid context at rest. -/
structure State.Ready (e : State) : Prop where
  rest : e.busy = false
  valid : e.status.ctxValid = true
  fill : e.ctx.bufIdx.toNat ≤ 64

/-- R98: the word the host writes for ABSORB is the instruction's. -/
theorem absorb_word_eq_encode (cnt : BitVec 3) :
    (0x00000002 ||| cnt.setWidth 32 <<< 4 : Word) = encode (.absorb cnt) := by
  revert cnt
  decide

/-- `WR DATA, w`, `ABSORB cnt`, `WAIT` (R99). -/
theorem absorb_reaches {e : State} (he : e.Ready) {w : Word} {cnt : BitVec 3} (hcnt : cnt.toNat ≤ 4) {bs : List Byte}
    (hbs : dataBytes w cnt = bs) (rest : List HostStmt) (rs : List Word) :
    ∃ e', Session.Reaches ⟨e, .wr 0x0C w :: .absorb cnt :: .wait :: rest, rs⟩ ⟨e', rest, rs⟩ ∧ e'.Ready ∧
      e'.ctx = absorbBytes bs e.ctx := by
  obtain ⟨hb, hv, hfill⟩ := he
  have hstore : sessionStep ⟨e, .wr 0x0C w :: .absorb cnt :: .wait :: rest, rs⟩ =
      .next ⟨storeOperand .data w e.written, .absorb cnt :: .wait :: rest, rs⟩ :=
    sessionStep_of_write (st := .wr 0x0C w) rfl (by decide) hb rfl _ rs
  generalize hd : storeOperand .data w e.written = d at hstore
  obtain ⟨hdb, hdv, hdctx, hdata⟩ : d.busy = false ∧ d.status.ctxValid = true ∧ d.ctx = e.ctx ∧ d.regs.data = w := by
    rw [← hd]
    exact ⟨hb, hv, rfl, rfl⟩
  have ha : CommandAccepted (.absorb cnt) d :=
    ⟨d.busy_eq_false.1 hdb, fun _ h => by cases h; exact hcnt, fun _ _ => hdv⟩
  have hdecode := (decode_eq_instr_iff_encode _ (.absorb cnt)).2 ⟨decide_eq_true hcnt, absorb_word_eq_encode cnt⟩
  have hlevel := commandLevel_absorb (s := d.written) hdb hdv hcnt
  obtain ⟨e', hreach, he'⟩ := command_reaches (st := .absorb cnt) rfl hdecode ha (fun _ _ => hdctx ▸ hfill)
    (by rw [hlevel]; exact hdb) rest rs
  rw [hlevel] at he'
  have hctx : e'.ctx = absorbBytes bs e.ctx := by rw [← hbs, ← hdata, ← hdctx]; exact he'.ctx
  refine ⟨e', .head hstore hreach, ⟨he'.busy.trans hdb, ?_, ?_⟩, hctx⟩
  · exact (congrArg Status.ctxValid he'.status).trans hdv
  · rw [hctx]
    exact absorbBytes_bufIdx_le _ hfill

/-- R13, R93: the bytes taken of a packed word. -/
theorem dataBytes_le32 (a b c d : Byte) {cnt : BitVec 3} (hcnt : cnt.toNat ≤ 4) :
    dataBytes (le32 a b c d) cnt = [a, b, c, d].take cnt.toNat := by
  refine List.ext_getElem (by simp [dataBytes, hcnt]) fun j hj hj' => ?_
  have hj4 : j < 4 := by simp [dataBytes] at hj; omega
  simp only [dataBytes, List.getElem_map, List.getElem_range, byteOf_le32 a b c d hj4, List.getElem_take]
  rfl

/-- `ABSORB_BYTES` absorbs its message (R99). -/
theorem absorbStmts_reach (msg : List Byte) {e : State} (he : e.Ready) (rest : List HostStmt) (rs : List Word) :
    ∃ e', Session.Reaches ⟨e, absorbStmts msg ++ rest, rs⟩ ⟨e', rest, rs⟩ ∧ e'.Ready ∧
      e'.ctx = absorbBytes msg e.ctx := by
  induction msg using absorbStmts.induct generalizing e with
  | case1 => exact ⟨e, .refl _, he, rfl⟩
  | case2 a => exact absorb_reaches he (by decide) (dataBytes_le32 a 0 0 0 (by decide)) rest rs
  | case3 a b => exact absorb_reaches he (by decide) (dataBytes_le32 a b 0 0 (by decide)) rest rs
  | case4 a b c => exact absorb_reaches he (by decide) (dataBytes_le32 a b c 0 (by decide)) rest rs
  | case5 a b c d msg ih =>
    obtain ⟨e₁, hfirst, he₁, hctx₁⟩ := absorb_reaches he (cnt := 4) (by decide) (dataBytes_le32 a b c d (by decide))
      (absorbStmts msg ++ rest) rs
    obtain ⟨e₂, hlast, he₂, hctx₂⟩ := ih he₁
    refine ⟨e₂, hfirst.trans hlast, he₂, ?_⟩
    rw [hctx₂, hctx₁]
    rfl

/-- DIGEST and its WAIT. -/
theorem digest_reaches {e : State} (he : e.Ready) (rest : List HostStmt) (rs : List Word) :
    ∃ e', Session.Reaches ⟨e, .digest :: .wait :: rest, rs⟩ ⟨e', rest, rs⟩ ∧ e'.busy = false ∧
      e'.status.dvalid = true ∧ e'.dreg = extractDigest (finalState e.ctx) e.ctx.ds := by
  obtain ⟨hb, hv, -⟩ := he
  have hlevel := commandLevel_digest (s := e.written) hb hv
  have ha : CommandAccepted .digest e := ⟨e.busy_eq_false.1 hb, nofun, fun _ _ => hv⟩
  obtain ⟨e', hreach, he'⟩ := command_reaches (st := .digest) rfl (w := 0x00000003) rfl ha nofun
    (by rw [hlevel]; exact hb) rest rs
  rw [hlevel] at he'
  exact ⟨e', hreach, he'.busy.trans hb, congrArg Status.dvalid he'.status, he'.dreg⟩

/-! Reads. -/

/-- A list of reads at rest adds what each register holds, and writes the pins alone. -/
theorem reads_reach (offs : List (BitVec 8)) (hoffs : ∀ off ∈ offs, off.toNat % 4 = 0) {e : State} (hb : e.busy = false)
    (rs : List Word) :
    ∃ e', Session.Reaches ⟨e, offs.map .rd, rs⟩ ⟨e', [], rs ++ offs.map (fun off => readReg (regAt off) e)⟩ ∧
      e'.busy = false := by
  induction offs generalizing e rs with
  | nil => exact ⟨e, by simpa using Session.Reaches.refl _, hb⟩
  | cons off offs ih =>
    have hb' : (e.withInputs []).busy = false := hb
    have hcycle : cycle (HostStmt.rd off).cycle (e.withInputs []) =
        .next ((e.withInputs []).withOut { ready := true, rdata := some (readReg (regAt off) e) }) := by
      rw [cycle_of_running rfl, hb']
      exact onNext_eq_next.2 ⟨_, serve_read_of_rest hb' (hoffs off (List.mem_cons_self ..)), rfl⟩
    obtain ⟨e', hreach, he'⟩ := ih (fun o ho => hoffs o (List.mem_cons_of_mem off ho))
      (e := (e.withInputs []).withOut { ready := true, rdata := some (readReg (regAt off) e) }) hb
      (rs ++ [readReg (regAt off) e])
    refine ⟨e', .head (sessionStep_of_cycle hcycle _ rs) ?_, he'⟩
    simpa [HostStmt.remaining, HostStmt.result] using hreach

/-! The program. -/

/-- The stores of SETKEY (R99). -/
def keyStores (key : List Byte) : List (BitVec 8 × Word) :=
  (List.finRange 8).map fun i => (BitVec.ofNat 8 (0x20 + 4 * i.val), packBytes key i.val)

/-- The operand stores of CREATE (R99: SETPARAM, SETKEY, SETSALT, SETPERS). -/
def createStores (key salt pers : List Byte) (ds : Byte) : List (BitVec 8 × Word) :=
  (0x08, (createLatches key salt pers ds).param) :: keyStores key ++
    [(0x10, packBytes salt 0), (0x14, packBytes salt 1), (0x18, packBytes pers 0), (0x1C, packBytes pers 1)]

theorem create_append_getDigest (msg key salt pers : List Byte) (ds : Byte) :
    create msg key salt pers ds ++ getDigest =
      (createStores key salt pers ds).map (fun p => .wr p.1 p.2) ++ .init :: .wait :: (absorbStmts msg ++
        .digest :: .wait :: ((List.finRange 8).map fun i => BitVec.ofNat 8 (0x40 + 4 * i.val)).map .rd) := by
  have hkey : setKey key = (keyStores key).map (fun p => .wr p.1 p.2) := rfl
  have hreads : getDigest = .digest :: .wait ::
      ((List.finRange 8).map fun i => BitVec.ofNat 8 (0x40 + 4 * i.val)).map .rd := rfl
  rw [create, hkey, hreads]
  simp only [createStores, createLatches, setParam, setSalt, setPers, List.map_append, List.map_cons, List.map_nil,
    List.append_assoc, List.cons_append, List.nil_append]

theorem createStores_offsets (key salt pers : List Byte) (ds : Byte) :
    ∀ p ∈ createStores key salt pers ds, StoreOffset p.1 := by
  have hoffs : ∀ off ∈ [0x08, 0x20, 0x24, 0x28, 0x2C, 0x30, 0x34, 0x38, 0x3C, 0x10, 0x14, 0x18, 0x1C],
      StoreOffset off := by decide
  exact fun p hp => hoffs p.1 (List.mem_map_of_mem (f := Prod.fst) hp)

/-- Writing every entry of a vector in order. -/
theorem foldl_set_finRange {α : Type} {n : Nat} (f : Fin n → α) (v : Vector α n) :
    (List.finRange n).foldl (fun v i => v.set i (f i)) v = Vector.ofFn f := by
  have hwritten : ∀ k ≤ n, ∀ i : Fin n, i.val < k →
      (((List.finRange n).take k).foldl (fun v i => v.set i (f i)) v)[i] = f i := by
    intro k
    induction k with
    | zero => omega
    | succ k ih =>
      intro hk i hi
      rw [foldl_take_succ_finRange _ _ hk]
      by_cases h : i.val = k
      · obtain rfl : i = ⟨k, hk⟩ := Fin.ext h
        simp
      · have := ih (by omega) i (by omega)
        simpa [Vector.getElem_set, Ne.symm h] using this
  refine Vector.ext fun i hi => ?_
  have := hwritten n (Nat.le_refl n) ⟨i, hi⟩ hi
  rw [List.take_of_length_le (by simp)] at this
  simpa using this

theorem foldl_storeReg_key (f : Fin 8 → Word) (l : List (Fin 8)) (r : OperandRegs) :
    l.foldl (fun r i => storeReg (.key i) (f i) r) r =
      { r with key := l.foldl (fun v (i : Fin 8) => v.set i (f i)) r.key } := by
  induction l generalizing r with
  | nil => rfl
  | cons i l ih => exact ih _

theorem foldl_keyStores (key : List Byte) (r : OperandRegs) :
    (keyStores key).foldl (fun r p => storeReg (regAt p.1) p.2 r) r =
      { r with key := Vector.ofFn fun i => packBytes key i.val } := by
  rw [keyStores, List.foldl_map]
  simp only [regAt_key]
  rw [foldl_storeReg_key (fun i => packBytes key i.val), foldl_set_finRange]

/-- The operand registers after CREATE's stores: what its INIT latches, and DATA as it was. -/
theorem foldl_createStores (key salt pers : List Byte) (ds : Byte) (r : OperandRegs) :
    (createStores key salt pers ds).foldl (fun r p => storeReg (regAt p.1) p.2 r) r =
      { r with
        param := (createLatches key salt pers ds).param
        key := (createLatches key salt pers ds).key
        salt := (createLatches key salt pers ds).salt
        pers := (createLatches key salt pers ds).pers } := by
  have hsalt : (r.salt.set 0 (packBytes salt 0)).set 1 (packBytes salt 1) = (createLatches key salt pers ds).salt :=
    foldl_set_finRange (fun i : Fin 2 => packBytes salt i.val) r.salt
  have hpers : (r.pers.set 0 (packBytes pers 0)).set 1 (packBytes pers 1) = (createLatches key salt pers ds).pers :=
    foldl_set_finRange (fun i : Fin 2 => packBytes pers i.val) r.pers
  rw [createStores, List.cons_append, List.foldl_cons, List.foldl_append, foldl_keyStores, ← hsalt, ← hpers]
  simp only [List.foldl_cons, List.foldl_nil]
  rfl

theorem paramOK_createLatches {key salt pers : List Byte} {ds : Byte} (hkey : key.length ≤ 32) (hsalt : salt.length ≤ 8)
    (hpers : pers.length ≤ 8) (hds : ds.toNat ≤ 32) : paramOK (createLatches key salt pers ds).param = true := by
  have hfield := fun {j} => @byteOf_le32 ds (BitVec.ofNat 8 key.length) (BitVec.ofNat 8 salt.length)
    (BitVec.ofNat 8 pers.length) j
  have hds' : dsField (createLatches key salt pers ds).param = ds := hfield (j := 0) (by decide)
  have hkl : klField (createLatches key salt pers ds).param = BitVec.ofNat 8 key.length := hfield (j := 1) (by decide)
  have hsl : slField (createLatches key salt pers ds).param = BitVec.ofNat 8 salt.length := hfield (j := 2) (by decide)
  have hpl : plField (createLatches key salt pers ds).param = BitVec.ofNat 8 pers.length := hfield (j := 3) (by decide)
  rw [paramOK_iff, hds', hkl, hsl, hpl]
  simp only [BitVec.toNat_ofNat]
  omega

/-- INIT reads its operands of the latches alone (R211, R212). -/
theorem initContext_congr {l l' : Latches} (hparam : l.param = l'.param) (hkey : l.key = l'.key)
    (hsalt : l.salt = l'.salt) (hpers : l.pers = l'.pers) (c : Context) : initContext l c = initContext l' c := by
  simp only [initContext, seedContext, hasKey, hparam, hkey, hsalt, hpers]

theorem initContext_bufIdx_le (l : Latches) (c : Context) : (initContext l c).bufIdx.toNat ≤ 64 := by
  have hseed : (seedContext l c).bufIdx.toNat ≤ 64 := Nat.zero_le _
  unfold initContext
  cases hasKey l
  · rwa [cond_false]
  · rw [cond_true]
    exact absorbBytes_bufIdx_le _ hseed

/-- The digest registers, read in order. -/
theorem map_readReg_digest {e : State} (hd : e.status.dvalid = true) :
    ((List.finRange 8).map fun i => BitVec.ofNat 8 (0x40 + 4 * i.val)).map (fun off => readReg (regAt off) e) =
      e.dreg.toList := by
  rw [List.map_map]
  simp only [Function.comp_def, regAt_digest, readReg, hd, cond_true]
  exact List.ext_getElem (by simp) (by simp)

/-- GETDIGEST's reads are aligned. -/
theorem digestReads_aligned :
    ∀ off ∈ (List.finRange 8).map (fun i => BitVec.ofNat 8 (0x40 + 4 * i.val)), off.toNat % 4 = 0 := by
  decide

/-- Settles O59. The stores put CREATE's operands in the registers, INIT builds the context from them, ABSORB_BYTES
absorbs the message into it, DIGEST extracts its digest, and the eight reads return it. -/
theorem hostProgramReadsTheDigest : Obligations.HostProgramReadsTheDigest := by
  intro msg key salt pers ds e hb hkey hsalt hpers hds
  rw [create_append_getDigest]
  generalize hreads : (List.finRange 8).map (fun i => BitVec.ofNat 8 (0x40 + 4 * i.val)) = reads
  have haligned : ∀ off ∈ reads, off.toNat % 4 = 0 := hreads ▸ digestReads_aligned
  obtain ⟨e₁, hstores, hb₁, hctx₁, hregs₁⟩ := stores_reach _ (createStores_offsets key salt pers ds) hb
    (.init :: .wait :: (absorbStmts msg ++ .digest :: .wait :: reads.map .rd)) []
  rw [foldl_createStores] at hregs₁
  have hp : paramOK e₁.regs.param = true := by
    rw [hregs₁]
    exact paramOK_createLatches hkey hsalt hpers hds
  obtain ⟨e₂, hinit, hb₂, hv₂, hctx₂⟩ := init_reaches hb₁ hp (absorbStmts msg ++ .digest :: .wait :: reads.map .rd) []
  have hbuilt : e₂.ctx = initContext (createLatches key salt pers ds) e.ctx := by
    rw [hctx₂, hctx₁]
    apply initContext_congr <;> simp [latchInit, hregs₁]
  have hready : e₂.Ready := ⟨hb₂, hv₂, hbuilt ▸ initContext_bufIdx_le _ _⟩
  obtain ⟨e₃, habsorb, hready₃, hctx₃⟩ := absorbStmts_reach msg hready (.digest :: .wait :: reads.map .rd) []
  obtain ⟨e₄, hdigest, hb₄, hd₄, hdreg₄⟩ := digest_reaches hready₃ (reads.map .rd) []
  obtain ⟨e₅, hread, hb₅⟩ := reads_reach reads haligned hb₄ []
  obtain ⟨n, hn⟩ := hstores.trans (hinit.trans (habsorb.trans (hdigest.trans hread)))
  refine ⟨n, _, _, hn, rfl, rfl, hb₅, ?_⟩
  rw [List.nil_append, ← hreads, map_readReg_digest hd₄, hdreg₄, hctx₃, hbuilt]

end Sys2Proof.Machine

/-! PROOFS. The parameter block (40_param_block.md R121 to R128). `paramBytes` is described once, byte by byte; its words
are `blockWords` of it, so a word's bytes are four bytes of the block, and two blocks agree when their fields do. -/

namespace Sys2Proof.Machine

/-! The parameter check. -/

/-- R121: `pcause` as a number, one bit for each violated constraint. -/
theorem toNat_pcauseOf (param : Word) :
    (pcauseOf param).toNat = (if 8 < (slField param).toNat then 1 else 0) + (if 8 < (plField param).toNat then 2 else 0) +
      (if 32 < (klField param).toNat then 4 else 0) + (if 32 < (dsField param).toNat then 8 else 0) := by
  have hbits : ∀ a b c d : Bool,
      (BitVec.ofBool d ++ BitVec.ofBool c ++ BitVec.ofBool b ++ BitVec.ofBool a : BitVec 4).toNat =
        (if a then 1 else 0) + (if b then 2 else 0) + (if c then 4 else 0) + (if d then 8 else 0) := by decide
  rw [pcauseOf, hbits]
  simp only [decide_eq_true_eq]

/-- Settles O42: validity is `paramOK_iff`, and the number is that of the four bits. -/
theorem parameterCheck : Obligations.ParameterCheck := by
  refine fun param => ⟨(paramOK_iff param).trans ?_, toNat_pcauseOf param⟩
  constructor
  · rintro ⟨hds, hkl, hpl, hsl⟩
    exact ⟨hsl, hpl, hkl, hds⟩
  · rintro ⟨hsl, hpl, hkl, hds⟩
    exact ⟨hds, hkl, hpl, hsl⟩

/-! The words of a block. -/

/-- R62: byte `j` of word `w` is byte `4w + j` of the block. -/
theorem byteOf_blockWords (B : Block) (w : Fin 16) (j : Fin 4) :
    byteOf (blockWords B)[w] j.val = B[4 * w.val + j.val] := by
  simp only [blockWords, Fin.getElem_fin, Vector.getElem_ofFn, byteOf_le32 _ _ _ _ j.isLt]
  obtain ⟨j, hj⟩ := j
  match j, hj with
  | 0, _ => simp
  | 1, _ => simp
  | 2, _ => simp
  | 3, _ => simp

/-- R13: a word is its four bytes. -/
theorem eq_of_byteOf_eq {w w' : Word} (h : ∀ j : Fin 4, byteOf w j.val = byteOf w' j.val) : w = w' := by
  rw [← le32_byteOf w, ← le32_byteOf w']
  congr 1
  exacts [h 0, h 1, h 2, h 3]

/-- A word whose four bytes are 0 is 0. -/
theorem blockWords_eq_zero {B : Block} {w : Fin 16} (h : ∀ j : Fin 4, B[4 * w.val + j.val] = 0) :
    (blockWords B)[w] = 0 :=
  eq_of_byteOf_eq fun j => (byteOf_blockWords B w j).trans ((h j).trans BitVec.extractLsb'_zero.symm)

/-! The bytes of the parameter block. -/

theorem toNat_effectiveDs (param : Word) :
    (effectiveDs param).toNat = if dsField param = 0 then 32 else (dsField param).toNat := by
  unfold effectiveDs
  split <;> rfl

/-- R124: bytes 4 to 15 and 32 to 63 are 0. -/
theorem paramBytes_eq_zero (param : Word) (salt pers : Vector Word 2) {i : Nat} (hi : i < 64)
    (h : 4 ≤ i ∧ i < 16 ∨ 32 ≤ i) : (paramBytes param salt pers)[i] = 0 := by
  simp only [paramBytes, Vector.getElem_ofFn]
  rw [if_neg (by omega), if_neg (by omega), if_neg (by omega), if_neg (by omega), dif_neg (by omega),
    dif_neg (by omega)]

/-- R125: bytes 16 to 23 carry the salt. -/
theorem paramBytes_salt (param : Word) (salt pers : Vector Word 2) {i : Nat} (hlo : 16 ≤ i) (hhi : i < 24) :
    (paramBytes param salt pers)[i] =
      byteWithin (i - 16) (slField param) (laneByte salt (i - 16) (by omega)) := by
  simp only [paramBytes, Vector.getElem_ofFn]
  rw [if_neg (by omega), if_neg (by omega), if_neg (by omega), if_neg (by omega), dif_pos ⟨hlo, hhi⟩]

/-- R126: bytes 24 to 31 carry the personalization. -/
theorem paramBytes_pers (param : Word) (salt pers : Vector Word 2) {i : Nat} (hlo : 24 ≤ i) (hhi : i < 32) :
    (paramBytes param salt pers)[i] =
      byteWithin (i - 24) (plField param) (laneByte pers (i - 24) (by omega)) := by
  simp only [paramBytes, Vector.getElem_ofFn]
  rw [if_neg (by omega), if_neg (by omega), if_neg (by omega), if_neg (by omega), dif_neg (by omega),
    dif_pos ⟨hlo, hhi⟩]

/-- R123, R127: word 0 packs `ds'`, KL, the fan-out and the depth. -/
theorem paramWords_zero (param : Word) (salt pers : Vector Word 2) :
    (paramWords param salt pers)[0] = le32 (effectiveDs param) (klField param) 1 1 := by
  simp [paramWords, blockWords, paramBytes]

/-- R125, R127: words 4 and 5 are the salt registers, cut off at `SL`. -/
theorem byteOf_paramWords_salt (param : Word) (salt pers : Vector Word 2) (i : Fin 2) (j : Fin 4) :
    byteOf (paramWords param salt pers)[4 + i.val] j.val =
      byteWithin (4 * i.val + j.val) (slField param) (byteOf salt[i] j.val) := by
  have hindex : 4 * (4 + i.val) + j.val - 16 = 4 * i.val + j.val := by omega
  refine (byteOf_blockWords _ ⟨4 + i.val, by omega⟩ j).trans ?_
  rw [paramBytes_salt _ _ _ (by dsimp only; omega) (by dsimp only; omega), ← laneByte_four_mul_add salt]
  simp only [hindex]

/-- R126, R127: words 6 and 7 are the personalization registers, cut off at `PL`. -/
theorem byteOf_paramWords_pers (param : Word) (salt pers : Vector Word 2) (i : Fin 2) (j : Fin 4) :
    byteOf (paramWords param salt pers)[6 + i.val] j.val =
      byteWithin (4 * i.val + j.val) (plField param) (byteOf pers[i] j.val) := by
  have hindex : 4 * (6 + i.val) + j.val - 24 = 4 * i.val + j.val := by omega
  refine (byteOf_blockWords _ ⟨6 + i.val, by omega⟩ j).trans ?_
  rw [paramBytes_pers _ _ _ (by dsimp only; omega) (by dsimp only; omega), ← laneByte_four_mul_add pers]
  simp only [hindex]

/-- Settles O43. Word 0 is packed from the header bytes, the constant words have only bytes that are 0, and the salt and
personalization words are the lemmas about their bytes. -/
theorem parameterBlockWords : Obligations.ParameterBlockWords := by
  intro param salt pers _
  refine ⟨?_, fun i hi => ?_, fun i j =>
    ⟨byteOf_paramWords_salt param salt pers i j, byteOf_paramWords_pers param salt pers i j⟩⟩
  · rw [paramWords_zero, ← toNat_effectiveDs, BitVec.ofNat_toNat]
    rfl
  · refine blockWords_eq_zero fun j => paramBytes_eq_zero param salt pers _ ?_
    simp only [List.mem_cons, List.not_mem_nil, or_false] at hi
    omega

/-! What the block depends on. -/

/-- The block is a function of `DS`, `KL` and the bytes within `SL` and `PL`. -/
theorem paramBytes_congr {param param' : Word} {salt pers salt' pers' : Vector Word 2}
    (hds : dsField param = dsField param') (hkl : klField param = klField param')
    (hsalt : ∀ (i : Nat) (hi : i < 8),
      byteWithin i (slField param) (laneByte salt i hi) = byteWithin i (slField param') (laneByte salt' i hi))
    (hpers : ∀ (i : Nat) (hi : i < 8),
      byteWithin i (plField param) (laneByte pers i hi) = byteWithin i (plField param') (laneByte pers' i hi)) :
    paramBytes param salt pers = paramBytes param' salt' pers' := by
  unfold paramBytes effectiveDs
  simp only [hds, hkl, hsalt, hpers]

/-- A byte past the length does not matter. -/
theorem byteWithin_congr {i : Nat} {len b b' : Byte} (h : i < len.toNat → b = b') :
    byteWithin i len b = byteWithin i len b' :=
  ite_congr rfl h fun _ => rfl

theorem byteWithin_zero (i : Nat) (b : Byte) : byteWithin i 0 b = 0 := if_neg (Nat.not_lt_zero i)

/-- Lengthening does not matter where the added bytes are 0. -/
theorem byteWithin_lengthen {i : Nat} {len len' b : Byte} (hlen : len.toNat ≤ len'.toNat)
    (h : len.toNat ≤ i → b = 0) : byteWithin i len b = byteWithin i len' b := by
  unfold byteWithin
  by_cases hi : i < len.toNat
  · rw [if_pos hi, if_pos (by omega)]
  · rw [if_neg hi, h (by omega), ite_self]

/-- Settles O44. With no salt and no personalization every byte of words 4 to 7 is past its length; the other two parts
compare the fields of two blocks. -/
theorem parameterBlockIgnoresUnusedBytes : Obligations.ParameterBlockIgnoresUnusedBytes := by
  refine ⟨fun param salt pers hsl hpl i hlo hhi => ?_, fun param salt pers salt' pers' hsalt hpers => ?_,
    fun param param' salt pers hds hkl hpl hlen hpad => ?_⟩
  · refine blockWords_eq_zero fun j => ?_
    by_cases hi : i.val < 6
    · rw [paramBytes_salt _ _ _ (by omega) (by omega), hsl, byteWithin_zero]
    · rw [paramBytes_pers _ _ _ (by omega) (by omega), hpl, byteWithin_zero]
  · exact paramBytes_congr rfl rfl (fun i hi => byteWithin_congr (hsalt ⟨i, hi⟩))
      (fun i hi => byteWithin_congr (hpers ⟨i, hi⟩))
  · exact paramBytes_congr hds hkl (fun i hi => byteWithin_lengthen hlen (hpad ⟨i, hi⟩)) (fun i hi => by rw [hpl])

end Sys2Proof.Machine

/-! PROOFS. The mixing primitive (41_mixing.md R140 to R145). G is eight assignments `v[t] <- f(v[t], v[s])` with `t` and
`s` among its four indices; what one assignment writes and reads gives what G writes and reads. -/

namespace Sys2Proof.Machine

/-! The rotation. -/

/-- R141: a bit below `32 - n` comes from the right shift, the others from the left shift. -/
theorem getLsbD_rotr (x : Word) {n i : Nat} (hn : n < 32) (hi : i < 32) :
    (rotr x n).getLsbD i = x.getLsbD ((i + n) % 32) := by
  rw [rotr, BitVec.getLsbD_or, BitVec.getLsbD_ushiftRight, BitVec.getLsbD_shiftLeft]
  by_cases hlow : i < 32 - n
  · simp [hlow, Nat.add_comm n i, Nat.mod_eq_of_lt (show i + n < 32 by omega)]
  · have hwrap : (i + n) % 32 = i - (32 - n) := by omega
    simp [hlow, hi, hwrap, x.getLsbD_of_ge (n + i) (by omega)]

/-- Settles O45: each of the four rotation constants is below 32. -/
theorem rotationMovesBits : Obligations.RotationMovesBits := by
  intro x n i hn hi
  have hconstants : ∀ n ∈ [16, 12, 8, 7], n < 32 := by decide
  exact getLsbD_rotr x (hconstants n hn) hi

/-! One assignment of G. -/

/-- R142: the form of G's statements, `v[t] <- f(v[t], v[s])`. -/
def mixAssign (f : Word → Word → Word) (t s : Fin 16) (v : Vector Word 16) : Vector Word 16 := v.set t (f v[t] v[s])

theorem mixAssign_target (f : Word → Word → Word) (t s : Fin 16) (v : Vector Word 16) :
    (mixAssign f t s v)[t] = f v[t] v[s] := Vector.getElem_set_self t.isLt

theorem mixAssign_of_ne (f : Word → Word → Word) {t i : Fin 16} (s : Fin 16) (v : Vector Word 16) (h : t ≠ i) :
    (mixAssign f t s v)[i] = v[i] := Vector.getElem_set_ne t.isLt i.isLt (Fin.val_ne_of_ne h)

/-- R142: the sum that a statement of G assigns, with the word `x` added. -/
def mixSum (x p q : Word) : Word := p + q + x

/-- R142: the rotated exclusive-or that a statement of G assigns. -/
def mixRot (n : Nat) (p q : Word) : Word := rotr (p ^^^ q) n

/-- R142: G's eight statements, the first innermost. -/
theorem mixG_eq_assignments (a b c d : Fin 16) (x y : Word) (v : Vector Word 16) :
    mixG a b c d x y v =
      mixAssign (mixRot 7) b c (mixAssign (· + ·) c d (mixAssign (mixRot 8) d a (mixAssign (mixSum y) a b
        (mixAssign (mixRot 12) b c (mixAssign (· + ·) c d (mixAssign (mixRot 16) d a (mixAssign (mixSum x) a b v))))))) :=
  rfl

/-! What G writes. -/

/-- R142: G writes its four words only, with the indices in any relation (R144). -/
theorem mixG_of_notMem {a b c d i : Fin 16} (x y : Word) (v : Vector Word 16) (hi : i ∉ [a, b, c, d]) :
    (mixG a b c d x y v)[i] = v[i] := by
  simp only [List.mem_cons, List.not_mem_nil, or_false, not_or] at hi
  obtain ⟨ha, hb, hc, hd⟩ := hi
  simp only [mixG_eq_assignments, mixAssign_of_ne _ _ _ (Ne.symm ha), mixAssign_of_ne _ _ _ (Ne.symm hb),
    mixAssign_of_ne _ _ _ (Ne.symm hc), mixAssign_of_ne _ _ _ (Ne.symm hd)]

/-- Settles O46. A word is what the last assignment to it gave, and an assignment leaves the words of the other
indices; the frame is `mixG_of_notMem`. -/
theorem mixingWritesFourWords : Obligations.MixingWritesFourWords := by
  rintro a b c d x y v hdistinct a1 d1 c1 b1 a2 d2 c2 b2 rfl rfl rfl rfl rfl rfl rfl rfl
  simp only [List.nodup_cons, List.mem_cons, List.not_mem_nil, or_false, not_or] at hdistinct
  obtain ⟨⟨hab, hac, had⟩, ⟨hbc, hbd⟩, hcd, -⟩ := hdistinct
  refine ⟨?_, ?_, ?_, ?_, fun i => mixG_of_notMem x y v⟩ <;>
    simp only [mixG_eq_assignments, mixAssign_target, mixAssign_of_ne, ne_eq, hab, hac, had, hbc, hbd, hcd,
      Ne.symm hab, Ne.symm hac, Ne.symm had, Ne.symm hbc, Ne.symm hbd, Ne.symm hcd, not_false_eq_true, mixSum, mixRot]

/-! What G reads. -/

/-- Two working vectors hold the same words at the indices `S`. -/
def AgreeOn (S : List (Fin 16)) (v w : Vector Word 16) : Prop := ∀ i ∈ S, v[i] = w[i]

/-- An assignment whose two indices are in `S` reads nothing outside `S`. -/
theorem AgreeOn.mixAssign {S : List (Fin 16)} {v w : Vector Word 16} (h : AgreeOn S v w) (f : Word → Word → Word)
    {t s : Fin 16} (ht : t ∈ S) (hs : s ∈ S) : AgreeOn S (mixAssign f t s v) (mixAssign f t s w) := by
  intro i hi
  by_cases hti : t = i
  · subst hti
    rw [mixAssign_target, mixAssign_target, h t ht, h s hs]
  · rw [mixAssign_of_ne f s v hti, mixAssign_of_ne f s w hti, h i hi]

/-- R145: what G writes depends on its own four words only. -/
theorem AgreeOn.mixG {a b c d : Fin 16} {v w : Vector Word 16} (h : AgreeOn [a, b, c, d] v w) (x y : Word) :
    AgreeOn [a, b, c, d] (mixG a b c d x y v) (mixG a b c d x y w) := by
  have ha : a ∈ [a, b, c, d] := by simp
  have hb : b ∈ [a, b, c, d] := by simp
  have hc : c ∈ [a, b, c, d] := by simp
  have hd : d ∈ [a, b, c, d] := by simp
  have hfirst := (((h.mixAssign (mixSum x) ha hb).mixAssign (mixRot 16) hd ha).mixAssign (· + ·) hc hd).mixAssign
    (mixRot 12) hb hc
  exact (((hfirst.mixAssign (mixSum y) ha hb).mixAssign (mixRot 8) hd ha).mixAssign (· + ·) hc hd).mixAssign
    (mixRot 7) hb hc

/-! Independent calls. -/

section
variable {a b c d a' b' c' d' : Fin 16}

/-- R145: a call on other indices does not change what G leaves in its own four words. -/
theorem mixG_mixG_of_mem (hdisjoint : ∀ i ∈ [a, b, c, d], i ∉ [a', b', c', d']) (x y x' y' : Word)
    (v : Vector Word 16) {i : Fin 16} (hi : i ∈ [a, b, c, d]) :
    (mixG a b c d x y (mixG a' b' c' d' x' y' v))[i] = (mixG a b c d x y v)[i] :=
  have hother : AgreeOn [a, b, c, d] (mixG a' b' c' d' x' y' v) v := fun j hj => mixG_of_notMem x' y' v (hdisjoint j hj)
  hother.mixG x y i hi

/-- R145: neither call writes a word that the other reads, so a word is the same in either order: one call's, the
other's, or the one before both. -/
theorem mixG_comm (hdisjoint : ∀ i ∈ [a, b, c, d], i ∉ [a', b', c', d']) (x y x' y' : Word) (v : Vector Word 16) :
    mixG a b c d x y (mixG a' b' c' d' x' y' v) = mixG a' b' c' d' x' y' (mixG a b c d x y v) := by
  have hdisjoint' : ∀ i ∈ [a', b', c', d'], i ∉ [a, b, c, d] := fun i hi' hi => hdisjoint i hi hi'
  have hword : ∀ i : Fin 16, (mixG a b c d x y (mixG a' b' c' d' x' y' v))[i] =
      (mixG a' b' c' d' x' y' (mixG a b c d x y v))[i] := by
    intro i
    by_cases hi : i ∈ [a, b, c, d]
    · rw [mixG_mixG_of_mem hdisjoint x y x' y' v hi, mixG_of_notMem x' y' _ (hdisjoint i hi)]
    · by_cases hi' : i ∈ [a', b', c', d']
      · rw [mixG_mixG_of_mem hdisjoint' x' y' x y v hi', mixG_of_notMem x y _ hi]
      · rw [mixG_of_notMem x y _ hi, mixG_of_notMem x' y' _ hi', mixG_of_notMem x' y' _ hi', mixG_of_notMem x y _ hi]
  exact Vector.ext fun i hi => hword ⟨i, hi⟩

end

/-- R165: the columns are pairwise disjoint, and so are the diagonals. -/
theorem groups_disjoint : ∀ i j : Fin 8, i ≠ j → (i.val < 4 ↔ j.val < 4) →
    ∀ p ∈ [groups[i].1, groups[i].2.1, groups[i].2.2.1, groups[i].2.2.2],
      p ∉ [groups[j].1, groups[j].2.1, groups[j].2.2.1, groups[j].2.2.2] := by decide

/-- Settles O47: `mixG_comm`, and the table of index groups. -/
theorem disjointMixingsCommute : Obligations.DisjointMixingsCommute :=
  ⟨fun _ _ _ _ _ _ _ _ x y x' y' v hdisjoint => mixG_comm hdisjoint x y x' y' v, groups_disjoint⟩

end Sys2Proof.Machine

/-! PROOFS. Host accesses while a command runs (42_compression.md R172): an access then writes the host's part of the
state alone, and the controller's steps commute with any change of it. -/

namespace Sys2Proof.Machine

theorem serve_onlyHostWritten_of_busy {c : Cycle} {s t : State} (hb : s.busy = true) (h : serve c s = .next t) :
    s.OnlyHostWritten t := by
  rcases serve_cases h with hhost | ⟨i, haccepted, -⟩
  · exact hhost
  · exact absurd haccepted.idle (s.busy_eq_true.1 hb)

theorem State.sameEngine_withHost (s : State) (p : HostPart) : s.SameEngine (s.withHost p) :=
  ⟨rfl, rfl, rfl, rfl, rfl, rfl, rfl⟩

/-- Settles O36. -/
theorem runningCommandIsUndisturbed : Obligations.RunningCommandIsUndisturbed := by
  intro s t c hb hrst ht
  rw [cycle_of_running hrst, onNext_eq_next] at ht
  obtain ⟨u, hu, rfl⟩ := ht
  obtain ⟨heq, -⟩ := serve_onlyHostWritten_of_busy hb hu
  rw [hb, cond_true, heq, engineRun_withHost]
  exact State.sameEngine_withHost _ _

end Sys2Proof.Machine

/-! PROOFS. The parts of one compression around its rounds (42_compression.md R160 to R163, R168). -/

namespace Sys2Proof.Machine

section
variable (H : Vector Word 8) (T : BitVec 64) (F : Bool)

/-- R161, R162: the counter and the final flag touch the words from 12 on alone. -/
theorem getElem_initVector_of_lt {i : Nat} (hi : i < 12) : (initVector H T F)[i] = (H ++ iv)[i] := by
  have h12 : 12 ≠ i := by omega
  have h13 : 13 ≠ i := by omega
  have h14 : 14 ≠ i := by omega
  cases F <;> simp [initVector, h12, h13, h14]

theorem getElem_initVector_12 : (initVector H T F)[12] = iv[4] ^^^ tLo T := by
  have hiv : (H ++ iv)[12] = iv[4] := Vector.getElem_append_right (by decide) (by decide)
  cases F <;> simp [initVector, hiv]

theorem getElem_initVector_13 : (initVector H T F)[13] = iv[5] ^^^ tHi T := by
  have hiv : (H ++ iv)[13] = iv[5] := Vector.getElem_append_right (by decide) (by decide)
  cases F <;> simp [initVector, hiv]

theorem getElem_initVector_14 : (initVector H T F)[14] = if F then ~~~ iv[6] else iv[6] := by
  have hiv : (H ++ iv)[14] = iv[6] := Vector.getElem_append_right (by decide) (by decide)
  cases F <;> simp [initVector, hiv]

theorem getElem_initVector_15 : (initVector H T F)[15] = iv[7] := by
  have hiv : (H ++ iv)[15] = iv[7] := Vector.getElem_append_right (by decide) (by decide)
  cases F <;> simp [initVector, hiv]

end

theorem getElem_blockWords (B : Block) (i : Fin 16) :
    (blockWords B)[i] = le32 B[4 * i.val] B[4 * i.val + 1] B[4 * i.val + 2] B[4 * i.val + 3] := by
  simp [blockWords]

/-- R168. -/
theorem getElem_outWords (H : Vector Word 8) (v : Vector Word 16) (i : Fin 8) :
    (outWords H v)[i] = H[i] ^^^ v[i.val] ^^^ v[i.val + 8] := by
  simp [outWords]

/-- Settles O48: the words of the initial vector, of the block and of the output. -/
theorem compressionFramesTheRounds : Obligations.CompressionFramesTheRounds := by
  intro H B T F
  refine ⟨fun i => ?_, fun i => ?_, getElem_initVector_12 H T F, getElem_initVector_13 H T F,
    getElem_initVector_14 H T F, getElem_initVector_15 H T F, getElem_blockWords B, getElem_outWords H _⟩
  · rw [getElem_initVector_of_lt H T F (by omega)]
    exact Vector.getElem_append_left i.isLt
  · rw [getElem_initVector_of_lt H T F (by omega), Vector.getElem_append_right (by omega) (by omega)]
    simp

end Sys2Proof.Machine

/-! PROOFS. The controller's 82 steps from `C_LOAD` compute `Compress` (42_compression.md R171): 1 to load, 80 in `C_G`,
of which step `p` is in call `p mod 8` of round `p / 8`, and 1 in `C_OUT`. -/

namespace Sys2Proof.Machine

/-- After `p` of the G calls the controller is at call `p mod 8` of round `p / 8`. -/
theorem mixing_run (s : State) (v : Vector Word 16) {p : Nat} (hp : p < 80) :
    ∃ w, BusyRun p (s.mixing 0 0 v) (s.mixing ⟨p / 8, by omega⟩ ⟨p % 8, by omega⟩ w) := by
  have hrun := (mixRounds_run s v (r := p / 8) (by omega)).trans (mixCalls_run s _ _ (j := p % 8) (by omega))
  rw [Nat.div_add_mod] at hrun
  exact ⟨_, hrun⟩

/-- Steps 1 to 80 of a compression are in `C_G`, on the message words of the block. -/
theorem engineRun_mixing {s : State} (h : s.ctrl.ctl = .cLoad) {m : Nat} (hm1 : 1 ≤ m) (hm80 : m ≤ 80) :
    ∃ r j w, engineRun m s = (s.withDp { s.dp with m := blockWords s.blockSource }).mixing r j w := by
  obtain ⟨p, rfl⟩ := Nat.exists_eq_add_of_le' hm1
  obtain ⟨w, hrun⟩ := mixing_run (s.withDp { s.dp with m := blockWords s.blockSource })
    (initVector s.ctx.h s.counterSource s.dp.fin) (p := p) (by omega)
  rw [engineRun_succ, engineStep_of_cLoad h, loadStep_eq_mixing, hrun.engineRun_eq]
  exact ⟨_, _, w, rfl⟩

theorem engineRun_compressed {s : State} (h : s.ctrl.ctl = .cLoad) : engineRun 81 s = s.compressed :=
  (compression_run h).engineRun_eq

/-- Up to `C_OUT` no step of a compression writes one of its sources or the snapshot state. -/
theorem engineRun_keeps_sources {s : State} (h : s.ctrl.ctl = .cLoad) {m : Nat} (hm : m ≤ 81) :
    (engineRun m s).ctx = s.ctx ∧ (engineRun m s).dp.ts = s.dp.ts ∧ (engineRun m s).dp.hs = s.dp.hs := by
  obtain rfl | hm1 := Nat.eq_zero_or_pos m
  · exact ⟨rfl, rfl, rfl⟩
  obtain rfl | hm80 := Nat.eq_or_lt_of_le hm
  · simp [engineRun_compressed h]
  · obtain ⟨r, j, w, heq⟩ := engineRun_mixing h hm1 (by omega)
    simp [heq, State.mixing]

/-- DIGEST's compression ends in `D_OUT`, with the snapshot's final state in `hs`. -/
theorem engineRun_digestCompression {s : State} (h : s.ctrl.ctl = .cLoad) (hcaller : s.ctrl.caller = .digest)
    (hret : s.ctrl.ret = .dOut) :
    engineRun 82 s = goto .dOut (s.compressed.withDp { s.compressed.dp with
      hs := compress s.ctx.h (padBlock s.ctx) s.dp.ts s.dp.fin }) := by
  rw [engineRun_succ', engineRun_compressed h, engineStep_of_cOut s.compressed_ctl,
    outStep_compressed_of_digest hcaller hret]

/-- `BYTE'(k)` goes on to the next byte or ends the command. -/
theorem byteTail_ctl_ne_cOut (s : State) : (byteTail s).ctrl.ctl ≠ .cOut := by
  rcases byteNext_cases (s.withCtx (tailContext s.commandByte s.ctx)) with ⟨-, -, heq⟩ | heq
  · simp [byteTail, heq]
  · simp [byteTail, heq]

@[simp] theorem tailContext_h (b : Byte) (c : Context) : (tailContext b c).h = c.h := rfl

@[simp] theorem tailContext_t (b : Byte) (c : Context) : (tailContext b c).t = c.t := rfl

@[simp] theorem byteTail_dp (s : State) : (byteTail s).dp = s.dp := by simp [byteTail]

/-- Settles O49. The streaming callers' last step is `BYTE'(k)`'s too, which keeps `h`, `t` and the datapath. -/
theorem controllerComputesCompress : Obligations.ControllerComputesCompress := by
  intro s h
  refine ⟨fun m hm1 hm80 => ?_, ?_, fun m => engineRun_keeps_sources h, fun hcaller hret => ?_,
    fun hcaller hret => ?_⟩
  · obtain ⟨r, j, w, heq⟩ := engineRun_mixing h hm1 hm80
    rw [heq]
    rfl
  · rw [engineRun_compressed h, State.compressed_ctl]
  · rw [engineRun_digestCompression h hcaller hret]
    simp [goto]
  · rw [(byteCompression_run h hcaller hret).engineRun_eq]
    exact ⟨byteTail_ctl_ne_cOut _, by simp, by simp, by simp⟩

end Sys2Proof.Machine

/-! PROOFS. ABSORB run to its end (43_streaming.md R193, R195, R196): its byte loop, the snapshot registers included. -/

namespace Sys2Proof.Machine

/-- With no byte to absorb, the first step ends the command (R193 "n = 0"; log entry 7). -/
theorem engineStep_acceptAbsorb_of_empty {cnt : BitVec 3} (h : cnt.toNat = 0) (s : State) :
    engineStep (acceptAbsorb cnt s) = goto .idle (acceptAbsorb cnt s) := by
  have hcount : (acceptAbsorb cnt s).byteCount = 0 := h
  have hend : ¬ (acceptAbsorb cnt s).ctrl.k.toNat < (acceptAbsorb cnt s).byteCount := by omega
  rw [engineStep_of_byte rfl, byteStep_of_end hend, byteDone_of_absorb rfl]

/-- ABSORB, once accepted, runs its byte loop and goes to IDLE. Besides `acceptAbsorb_run`, what the loop keeps: the
snapshot registers, which the command level does not speak of. -/
theorem acceptAbsorb_loop {s : State} (hbuf : s.ctx.bufIdx.toNat ≤ 64) (cnt : BitVec 3) :
    ∃ v, BusyRun (commandSteps (.absorb cnt) s) (acceptAbsorb cnt s) (goto .idle v) ∧
      v.ctx = absorbBytes (dataBytes s.regs.data cnt) s.ctx ∧ (acceptAbsorb cnt s).SameCommand v := by
  cases hn : cnt.toNat with
  | zero =>
    have hsteps : commandSteps (.absorb cnt) s = 1 := by simp [commandSteps, compressionCount, hn]
    have hbytes : dataBytes s.regs.data cnt = [] := by simp [dataBytes, hn]
    rw [hsteps, hbytes]
    have hrun := BusyRun.single (s := acceptAbsorb cnt s) rfl
    rw [engineStep_acceptAbsorb_of_empty hn] at hrun
    exact ⟨acceptAbsorb cnt s, hrun, rfl, rfl, rfl, rfl, rfl, rfl, rfl⟩
  | succ n =>
    have hsteps : commandSteps (.absorb cnt) s = n + 1 + 82 * compressionCount s.ctx.bufIdx.toNat (n + 1) := by
      simp [commandSteps, hn]
    obtain ⟨v, hrun, hctx, hv⟩ := byteLoop_run (s := acceptAbsorb cnt s) (n := n) rfl nofun hbuf
      ((Nat.zero_add _).trans hn.symm)
    rw [byteDone_of_absorb hv.caller] at hrun
    exact ⟨v, hsteps ▸ hrun, hctx, hv⟩

theorem exec_absorb_of_count {s : State} (hb : s.busy = false) {cnt : BitVec 3} (h : 4 < cnt.toNat) :
    exec (.absorb cnt) s = .next (raiseError .illegalCmd 0 s) := by
  have hill : decide (cnt.toNat ≤ 4) = false := decide_eq_false (by omega)
  rw [exec, execAbsorb, accepting, hb, hill]
  rfl

/-- Settles O27: the run of the byte loop, and the host's part of the state, which no run writes. -/
theorem absorbAbsorbsItsBytes : Obligations.AbsorbAbsorbsItsBytes := by
  refine ⟨fun s cnt hb hv hcnt hbuf => ?_, fun s cnt hb hcnt => exec_absorb_of_count hb hcnt⟩
  obtain ⟨v, hrun, hctx, hsame⟩ := acceptAbsorb_loop hbuf cnt
  have hhost := hrun.host_eq
  simp only [State.host, HostPart.mk.injEq] at hhost
  obtain ⟨hregs, -, -, -, hout, hinputs, hdraws⟩ := hhost
  exact ⟨_, _, exec_absorb_accepted hb hv hcnt, rfl, hrun.engineRun_eq.symm, fun m => hrun.busy, rfl, hctx,
    hsame.status, hsame.latches, hsame.hs, hsame.ts, hregs, hsame.dreg, hout, hinputs, hdraws⟩

/-- Settles O28. -/
theorem absorbOfNothing : Obligations.AbsorbOfNothing := by
  intro s hb hv
  have hdecode := (decode_eq_instr_iff_encode 0x00000002 (.absorb 0)).2 (by decide)
  have hend : engineRun 1 (acceptAbsorb 0 s) = goto .idle (acceptAbsorb 0 s) :=
    engineStep_acceptAbsorb_of_empty (cnt := 0) rfl s
  refine ⟨acceptAbsorb 0 s, hdecode, exec_absorb_accepted hb hv (Nat.zero_le 4), rfl, rfl, ?_⟩
  rw [hend]
  exact ⟨rfl, rfl, rfl, rfl, rfl, rfl⟩

end Sys2Proof.Machine

/-! PROOFS. The streaming contract (43_streaming.md R197): a sequence of ABSORB commands folds `AbsorbByte` over the
concatenation of their bytes. -/

namespace Sys2Proof.Machine

/-- An ABSORB on a ready engine leaves a ready engine that has absorbed its bytes. -/
theorem runAbsorb_of_ready {s : State} (hs : s.Ready) {chunk : Word × BitVec 3} (hcnt : chunk.2.toNat ≤ 4) :
    (runAbsorb s chunk).Ready ∧ (runAbsorb s chunk).ctx = absorbBytes (dataBytes chunk.1 chunk.2) s.ctx := by
  obtain ⟨hb, hv, hfill⟩ := hs
  have hexec := exec_absorb_accepted (s := s.withRegs { s.regs with data := chunk.1 }) hb hv hcnt
  obtain ⟨u, hrun, hctx, hsame⟩ :=
    acceptAbsorb_loop (s := s.withRegs { s.regs with data := chunk.1 }) hfill chunk.2
  have heq : runAbsorb s chunk = goto .idle u := (runCommand_of_exec hexec).trans hrun.engineRun_eq
  rw [heq]
  exact ⟨⟨rfl, (congrArg Status.ctxValid hsame.status).trans hv, hctx ▸ absorbBytes_bufIdx_le _ hfill⟩, hctx⟩

theorem foldl_runAbsorb_ctx {chunks : List (Word × BitVec 3)} (hcnt : ∀ c ∈ chunks, c.2.toNat ≤ 4) {s : State}
    (hs : s.Ready) : (chunks.foldl runAbsorb s).ctx = absorbBytes (chunkBytes chunks) s.ctx := by
  induction chunks generalizing s with
  | nil => rfl
  | cons chunk chunks ih =>
    obtain ⟨hfirst, hrest⟩ := List.forall_mem_cons.1 hcnt
    obtain ⟨hready, hctx⟩ := runAbsorb_of_ready hs hfirst
    rw [List.foldl_cons, ih hrest hready, hctx, ← absorbBytes_append]
    rfl

/-- Settles O39. -/
theorem streamingContract : Obligations.StreamingContract := by
  intro s xs ys hb hv hbuf hxs hys heq
  rw [foldl_runAbsorb_ctx hxs ⟨hb, hv, hbuf⟩, foldl_runAbsorb_ctx hys ⟨hb, hv, hbuf⟩, heq]

end Sys2Proof.Machine

/-! PROOFS. The counter on its two words (43_streaming.md R192). -/

namespace Sys2Proof.Machine

theorem toNat_tLo (t : BitVec 64) : (tLo t).toNat = t.toNat % 2 ^ 32 := BitVec.extractLsb'_toNat 0 32 t

theorem toNat_tHi (t : BitVec 64) : (tHi t).toNat = t.toNat / 2 ^ 32 := by
  rw [tHi, BitVec.extractLsb'_toNat, Nat.shiftRight_eq_div_pow, Nat.mod_eq_of_lt]
  omega

theorem tLo_add (t : BitVec 64) (n : Nat) : tLo (t + BitVec.ofNat 64 n) = tLo t + BitVec.ofNat 32 n := by
  apply BitVec.eq_of_toNat_eq
  rw [toNat_tLo, BitVec.toNat_add, BitVec.toNat_add, toNat_tLo, BitVec.toNat_ofNat, BitVec.toNat_ofNat]
  omega

/-- The low word wraps exactly when the sum is below the summand. -/
theorem tHi_add (t : BitVec 64) {n : Nat} (hn : n < 2 ^ 32) :
    tHi (t + BitVec.ofNat 64 n) = tHi t + (if (tLo (t + BitVec.ofNat 64 n)).toNat < n then 1 else 0) := by
  have hsum : (t + BitVec.ofNat 64 n).toNat = (t.toNat + n) % 2 ^ 64 := by
    rw [BitVec.toNat_add, BitVec.toNat_ofNat]
    omega
  apply BitVec.eq_of_toNat_eq
  rw [BitVec.toNat_add, toNat_tHi, toNat_tHi, toNat_tLo, hsum]
  split
  · have hone : (1 : Word).toNat = 1 := rfl
    omega
  · have hzero : (0 : Word).toNat = 0 := rfl
    omega

theorem snapshotCounter_eq (c : Context) : snapshotCounter c = c.t + BitVec.ofNat 64 c.bufIdx.toNat := by
  rw [snapshotCounter, BitVec.ofNat_toNat]

/-- Settles O50. -/
theorem counterArithmeticOnWords : Obligations.CounterArithmeticOnWords :=
  ⟨fun t n hn => ⟨tLo_add t n, tHi_add t (by omega)⟩, fun c => ⟨rfl, snapshotCounter_eq c⟩,
    by decide, by decide, by decide⟩

end Sys2Proof.Machine

/-! PROOFS. Absorbing `n` bytes in closed form (43_streaming.md R194): the number of compressions satisfies the
recursion of `compressionCount_succ`, and the fill count and the counter follow from it. -/

namespace Sys2Proof.Machine

/-- R194: the compressions of absorbing a first byte, and of the rest from the context it leaves. -/
theorem compressionCount_absorbByte {c : Context} (h : c.bufIdx.toNat ≤ 64) (b : Byte) (n : Nat) :
    compressionCount c.bufIdx.toNat (n + 1) =
      (if c.bufIdx.toNat = 64 then 1 else 0) + compressionCount (absorbByte c b).bufIdx.toNat n := by
  rw [compressionCount_succ h, absorbByte_bufIdx h]

theorem absorbByte_bufIdx_le {c : Context} (h : c.bufIdx.toNat ≤ 64) (b : Byte) :
    (absorbByte c b).bufIdx.toNat ≤ 64 := absorbBytes_bufIdx_le [b] h

/-- A byte advances the counter by a block exactly when it finds the buffer full. -/
theorem absorbByte_t {c : Context} (h : c.bufIdx.toNat ≤ 64) (b : Byte) :
    (absorbByte c b).t = c.t + BitVec.ofNat 64 (64 * if c.bufIdx.toNat = 64 then 1 else 0) := by
  split
  · rw [absorbByte_of_full ‹_›]
    rfl
  · rw [absorbByte_of_room (by omega)]
    exact (BitVec.add_zero c.t).symm

/-- Every byte absorbed is in the buffer or in a block compressed. -/
theorem absorbBytes_bufIdx_add (bs : List Byte) {c : Context} (h : c.bufIdx.toNat ≤ 64) :
    (absorbBytes bs c).bufIdx.toNat + 64 * compressionCount c.bufIdx.toNat bs.length =
      c.bufIdx.toNat + bs.length := by
  induction bs generalizing c with
  | nil => rfl
  | cons b bs ih =>
    have hidx := absorbByte_bufIdx h b
    have hrest := ih (absorbByte_bufIdx_le h b)
    rw [absorbBytes_cons, List.length_cons, compressionCount_absorbByte h b]
    split at hidx
    · rw [if_pos ‹_›]
      omega
    · rw [if_neg ‹_›]
      omega

theorem absorbBytes_t (bs : List Byte) {c : Context} (h : c.bufIdx.toNat ≤ 64) :
    (absorbBytes bs c).t = c.t + BitVec.ofNat 64 (64 * compressionCount c.bufIdx.toNat bs.length) := by
  induction bs generalizing c with
  | nil => exact (BitVec.add_zero c.t).symm
  | cons b bs ih =>
    rw [absorbBytes_cons, List.length_cons, compressionCount_absorbByte h b, ih (absorbByte_bufIdx_le h b),
      absorbByte_t h, BitVec.add_assoc, ← BitVec.ofNat_add, Nat.mul_add]

/-- The bytes that find the buffer full. -/
theorem count_full_absorbBytes (bs : List Byte) {c : Context} (h : c.bufIdx.toNat ≤ 64) :
    ((List.range bs.length).filter fun i => (absorbBytes (bs.take i) c).bufIdx = 64).length =
      compressionCount c.bufIdx.toNat bs.length := by
  induction bs generalizing c with
  | nil => rfl
  | cons b bs ih =>
    rw [List.length_cons, compressionCount_absorbByte h b, ← ih (absorbByte_bufIdx_le h b)]
    have hfull : c.bufIdx = 64 ↔ c.bufIdx.toNat = 64 := by rw [← c.full_iff, Context.full, beq_iff_eq]
    rw [List.range_succ_eq_map, List.filter_cons, List.filter_map]
    by_cases hc : (absorbBytes ((b :: bs).take 0) c).bufIdx = 64
    · rw [if_pos (decide_eq_true hc), if_pos (hfull.1 hc), List.length_cons, List.length_map, Nat.add_comm]
      rfl
    · rw [if_neg (mt of_decide_eq_true hc), if_neg (mt hfull.2 hc), List.length_map, Nat.zero_add]
      rfl

theorem compressionCount_of_pos (i0 : Nat) {n : Nat} (h : n ≠ 0) : compressionCount i0 n = (i0 + n - 1) / 64 :=
  if_neg h

/-- Settles O51. -/
theorem absorptionClosedForm : Obligations.AbsorptionClosedForm := by
  intro c bs hbuf
  refine ⟨fun hnil => hnil ▸ rfl, fun hne N hN => ?_⟩
  have hlen : bs.length ≠ 0 := fun h => hne (List.length_eq_zero_iff.1 h)
  have hcount : compressionCount c.bufIdx.toNat bs.length = (N - 1) / 64 := hN ▸ compressionCount_of_pos _ hlen
  have hidx := absorbBytes_bufIdx_add bs hbuf
  rw [← hcount]
  refine ⟨count_full_absorbBytes bs hbuf, ?_, absorbBytes_t bs hbuf⟩
  omega

end Sys2Proof.Machine

/-! PROOFS. The stream as blocks (43_streaming.md R191, R194; 45_finalizer.md R231, R232): from an empty buffer, the
buffer holds the bytes since the last compression, and each compression is of the next block of the stream. -/

namespace Sys2Proof.Machine

/-- R191: the filled part of the buffer. -/
def Context.pending (c : Context) : List Byte := c.buf.toList.take c.bufIdx.toNat

/-- R232: the padded buffer is its filled part, and 0 past it. -/
theorem getElem_padBlock (c : Context) {i : Nat} (hi : i < 64) : (padBlock c)[i] = c.pending.getD i 0 := by
  by_cases h : i < c.bufIdx.toNat <;> simp [padBlock, Context.pending, h, hi]

theorem padBlock_of_full {c : Context} (h : c.bufIdx.toNat = 64) : padBlock c = c.buf := by
  refine Vector.ext fun i hi => ?_
  simp [padBlock, h]

theorem absorbByte_pending_of_room {c : Context} (h : c.bufIdx.toNat < 64) (b : Byte) :
    (absorbByte c b).pending = c.pending ++ [b] := by
  have hidx := absorbByte_bufIdx (c := c) (by omega) b
  rw [if_neg (by omega)] at hidx
  rw [Context.pending, hidx, absorbByte_of_room h, Context.pending, Vector.toList_set, List.take_add_one,
    List.take_set_of_le (Nat.le_refl _), List.getElem?_set_self (by simpa using h)]
  rfl

theorem absorbByte_pending_of_full {c : Context} (h : c.bufIdx.toNat = 64) (b : Byte) :
    (absorbByte c b).pending = [b] := by
  rw [absorbByte_of_full h, Context.pending, Vector.toList_set]
  show (c.buf.toList.set 0 b).take 1 = [b]
  rw [List.take_add_one, List.getElem?_set_self (by simp)]
  rfl

/-- R194: the blocks compressed while a sequence is absorbed from an empty buffer. -/
abbrev blocksDone (bs : List Byte) : Nat := compressionCount 0 bs.length

/-- The chaining state after the first `q` blocks of a sequence, absorbed from the context. -/
def chainBlocks (c : Context) (bs : List Byte) (q : Nat) : Vector Word 8 :=
  (List.range q).foldl
    (fun h i => compress h (blockAt bs i) (c.t + BitVec.ofNat 64 (64 * (i + 1))) false) c.h

theorem chainBlocks_succ (c : Context) (bs : List Byte) (q : Nat) :
    chainBlocks c bs (q + 1) =
      compress (chainBlocks c bs q) (blockAt bs q) (c.t + BitVec.ofNat 64 (64 * (q + 1))) false := by
  rw [chainBlocks, List.range_succ, List.foldl_append]
  rfl

theorem blockAt_append {bs : List Byte} {i : Nat} (h : 64 * (i + 1) ≤ bs.length) (cs : List Byte) :
    blockAt (bs ++ cs) i = blockAt bs i := by
  refine Vector.ext fun j hj => ?_
  simp only [blockAt, Vector.getElem_ofFn]
  exact List.getD_append _ _ _ _ (by omega)

theorem chainBlocks_append (c : Context) {bs : List Byte} {q : Nat} (h : 64 * q ≤ bs.length) (cs : List Byte) :
    chainBlocks c (bs ++ cs) q = chainBlocks c bs q := by
  refine List.foldl_ext _ _ _ fun _ i hi => ?_
  have hlt := List.mem_range.1 hi
  rw [blockAt_append (by omega)]

section
variable {c : Context} (h : c.bufIdx = 0)
include h

theorem absorbBytes_bufIdx_add_blocks (bs : List Byte) :
    (absorbBytes bs c).bufIdx.toNat + 64 * blocksDone bs = bs.length := by
  have hadd := absorbBytes_bufIdx_add bs (c := c) (by simp [h])
  simpa [h] using hadd

/-- A byte more completes no block, or the one that fills the buffer. -/
theorem blocksDone_append_singleton (bs : List Byte) (b : Byte) :
    blocksDone (bs ++ [b]) = blocksDone bs + if (absorbBytes bs c).bufIdx.toNat = 64 then 1 else 0 := by
  have hadd := absorbBytes_bufIdx_add_blocks h bs
  have hle := absorbBytes_bufIdx_le bs (c := c) (by simp [h])
  have hcount : blocksDone (bs ++ [b]) = bs.length / 64 := by simp [blocksDone, compressionCount]
  split <;> omega

/-- The buffer holds the bytes since the last compression. -/
theorem absorbBytes_pending (bs : List Byte) : (absorbBytes bs c).pending = bs.drop (64 * blocksDone bs) := by
  induction bs using List.reverseRecOn with
  | nil => simp [Context.pending, h]
  | append_singleton bs b ih =>
    have hadd := absorbBytes_bufIdx_add_blocks h bs
    have hle := absorbBytes_bufIdx_le bs (c := c) (by simp [h])
    rw [absorbBytes_append, absorbBytes_cons, absorbBytes_nil, blocksDone_append_singleton h]
    rcases Nat.lt_or_eq_of_le hle with hroom | hfull
    · rw [absorbByte_pending_of_room hroom, ih, if_neg (by omega), Nat.add_zero,
        List.drop_append_of_le_length (by omega)]
    · rw [absorbByte_pending_of_full hfull, if_pos hfull, List.drop_left' (by omega)]

/-- R232: the padded buffer is the block of the sequence after those compressed. -/
theorem padBlock_absorbBytes (bs : List Byte) : padBlock (absorbBytes bs c) = blockAt bs (blocksDone bs) := by
  refine Vector.ext fun i hi => ?_
  rw [getElem_padBlock _ hi, absorbBytes_pending h]
  simp [blockAt]

theorem absorbBytes_h (bs : List Byte) : (absorbBytes bs c).h = chainBlocks c bs (blocksDone bs) := by
  induction bs using List.reverseRecOn with
  | nil => rfl
  | append_singleton bs b ih =>
    have hadd := absorbBytes_bufIdx_add_blocks h bs
    have hle := absorbBytes_bufIdx_le bs (c := c) (by simp [h])
    have ht := absorbBytes_t bs (c := c) (by simp [h])
    rw [absorbBytes_append, absorbBytes_cons, absorbBytes_nil, blocksDone_append_singleton h]
    rcases Nat.lt_or_eq_of_le hle with hroom | hfull
    · rw [absorbByte_of_room hroom, if_neg (by omega), Nat.add_zero, chainBlocks_append c (by omega)]
      exact ih
    · have hbuf : (absorbBytes bs c).buf = blockAt bs (blocksDone bs) := by
        rw [← padBlock_of_full hfull, padBlock_absorbBytes h]
      have hcounter : (absorbBytes bs c).t + 64 = c.t + BitVec.ofNat 64 (64 * (blocksDone bs + 1)) := by
        rw [ht, h, Nat.mul_add, BitVec.ofNat_add, BitVec.add_assoc]
        rfl
      rw [absorbByte_of_full hfull, if_pos hfull, chainBlocks_append c (by omega), chainBlocks_succ, ← ih, ← hbuf,
        ← hcounter]

/-- R231: the snapshot's counter is at the number of bytes absorbed. -/
theorem snapshotCounter_absorbBytes (bs : List Byte) :
    snapshotCounter (absorbBytes bs c) = c.t + BitVec.ofNat 64 bs.length := by
  have hadd := absorbBytes_bufIdx_add bs (c := c) (by simp [h])
  have hlen : c.bufIdx.toNat + bs.length = bs.length := by simp [h]
  rw [snapshotCounter_eq, absorbBytes_t bs (by simp [h]), BitVec.add_assoc, ← BitVec.ofNat_add, Nat.add_comm,
    hadd, hlen]
end

/-- Settles O52. -/
theorem streamingIsBlockwise : Obligations.StreamingIsBlockwise := by
  intro c bs hempty hne q hq
  have hlen : bs.length ≠ 0 := fun h => hne (List.length_eq_zero_iff.1 h)
  have hdone : blocksDone bs = q := by rw [blocksDone, compressionCount_of_pos 0 hlen, hq, Nat.zero_add]
  refine ⟨hdone ▸ absorbBytes_h hempty bs, absorbBytes_ds bs c, ?_⟩
  rw [finalState, padBlock_absorbBytes hempty, snapshotCounter_absorbBytes hempty, hdone]

end Sys2Proof.Machine

/-! PROOFS. What the meaningful part of a context determines (10_state.md R22): two contexts that differ in no more than
the bytes of `buf` from `bufIdx` on stay so under every absorption, and have the same final state. -/

namespace Sys2Proof.Machine

section
variable {c d : Context} (h : c.SameMeaning d)
include h

/-- Of a full buffer every byte is meaningful. -/
theorem Context.SameMeaning.buf_eq_of_full (hf : c.bufIdx.toNat = 64) : c.buf = d.buf := by
  obtain ⟨-, -, -, -, hbuf⟩ := h
  exact Vector.ext fun i hi => hbuf ⟨i, hi⟩ (by omega)

/-- A byte is stored after the meaningful ones, or starts a new block once the full one, all of it meaningful, is
compressed. -/
theorem Context.SameMeaning.absorbByte (hle : c.bufIdx.toNat ≤ 64) (b : Byte) :
    (absorbByte c b).SameMeaning (absorbByte d b) := by
  have hfullBuf := h.buf_eq_of_full
  obtain ⟨hh, ht, hidx, hds, hbuf⟩ := h
  have hidx' := absorbByte_bufIdx hle b
  rcases Nat.lt_or_eq_of_le hle with hroom | hfull
  · rw [if_neg (by omega)] at hidx'
    rw [absorbByte_of_room hroom] at hidx' ⊢
    rw [absorbByte_of_room (hidx ▸ hroom)]
    refine ⟨hh, ht, congrArg (· + 1) hidx, hds, fun j hj => ?_⟩
    rw [hidx'] at hj
    simp only [Fin.getElem_fin, Vector.getElem_set, ← hidx]
    split
    · rfl
    · exact hbuf j (by omega)
  · rw [absorbByte_of_full hfull, absorbByte_of_full (hidx ▸ hfull), hh, ht, hfullBuf hfull]
    exact ⟨rfl, rfl, rfl, hds, fun _ _ => rfl⟩

theorem Context.SameMeaning.absorbBytes (hle : c.bufIdx.toNat ≤ 64) (bs : List Byte) :
    (absorbBytes bs c).SameMeaning (absorbBytes bs d) := by
  induction bs generalizing c d with
  | nil => exact h
  | cons b bs ih => exact ih (h.absorbByte hle b) (absorbByte_bufIdx_le hle b)

/-- The final state reads the chaining state, the counter and the padded block (R231, R232). -/
theorem Context.SameMeaning.finalState_eq : finalState c = finalState d := by
  obtain ⟨hh, ht, hidx, -, hbuf⟩ := h
  have hpad : padBlock c = padBlock d := by
    refine Vector.ext fun i hi => ?_
    simp only [padBlock, Vector.getElem_ofFn, ← hidx]
    split
    · exact hbuf ⟨i, hi⟩ ‹_›
    · rfl
  rw [finalState, finalState, snapshotCounter, snapshotCounter, hh, ht, hidx, hpad]
end

end Sys2Proof.Machine

/-! PROOFS. INIT run to its end (44_initializer.md R210 to R214): the context it builds, the datapath it leaves alone,
and what is left of the old context. -/

namespace Sys2Proof.Machine

/-! The context (R211, R212). -/

/-- A block absorbed into an empty buffer is held there, uncompressed. -/
theorem absorbBytes_block {c : Context} (h : c.bufIdx = 0) (B : Block) :
    absorbBytes B.toList c = { c with buf := B, bufIdx := 64 } := by
  have hdone : blocksDone B.toList = 0 := by simp [compressionCount]
  have hidx : (absorbBytes B.toList c).bufIdx.toNat = 64 := by
    simpa [hdone] using absorbBytes_bufIdx_add_blocks h B.toList
  have hh : (absorbBytes B.toList c).h = c.h := by rw [absorbBytes_h h, hdone]; rfl
  have ht : (absorbBytes B.toList c).t = c.t := by
    have hcount : compressionCount c.bufIdx.toNat B.toList.length = 0 := by simp [h, compressionCount]
    rw [absorbBytes_t _ (by simp [h]), hcount]
    exact BitVec.add_zero c.t
  have hbuf : (absorbBytes B.toList c).buf = B := by
    rw [← padBlock_of_full hidx, padBlock_absorbBytes h, hdone]
    exact Vector.ext fun i hi => by simp [blockAt]
  have hds := absorbBytes_ds B.toList c
  have hidx' : (absorbBytes B.toList c).bufIdx = 64 := BitVec.eq_of_toNat_eq hidx
  cases hd : absorbBytes B.toList c
  simp_all

theorem initContext_of_noKey {l : Latches} (h : hasKey l = false) (c : Context) :
    initContext l c = seedContext l c := by
  simp [initContext, h]

theorem initContext_of_hasKey {l : Latches} (h : hasKey l = true) (c : Context) :
    initContext l c = { seedContext l c with buf := keyBlock l.param l.key, bufIdx := 64 } := by
  rw [← absorbBytes_block rfl]
  simp [initContext, h]

/-- With or without a key, the chaining state, the counter and the digest size are those seeded. -/
theorem initContext_seeded (l : Latches) (c : Context) :
    (initContext l c).h = (seedContext l c).h ∧ (initContext l c).t = 0 ∧
      (initContext l c).ds = (effectiveDs l.param).setWidth 6 := by
  cases h : hasKey l
  · rw [initContext_of_noKey h]
    exact ⟨rfl, rfl, rfl⟩
  · rw [initContext_of_hasKey h]
    exact ⟨rfl, rfl, rfl⟩

/-- The 6 bits of `ds` hold every valid digest size (R122). -/
theorem toNat_seeded_ds {param : Word} (h : (dsField param).toNat ≤ 32) :
    ((effectiveDs param).setWidth 6).toNat = if dsField param = 0 then 32 else (dsField param).toNat := by
  rw [BitVec.toNat_setWidth, toNat_effectiveDs]
  exact Nat.mod_eq_of_lt (by split <;> omega)

/-- R214: nothing of the old context is meaningful in the new one. -/
theorem initContext_sameMeaning (l : Latches) (c d : Context) : (initContext l c).SameMeaning (initContext l d) := by
  have hseed : (seedContext l c).SameMeaning (seedContext l d) := ⟨rfl, rfl, rfl, rfl, nofun⟩
  cases h : hasKey l
  · rwa [initContext_of_noKey h, initContext_of_noKey h]
  · rw [initContext_of_hasKey h, initContext_of_hasKey h]
    exact ⟨rfl, rfl, rfl, rfl, fun _ _ => rfl⟩

/-! The controller (R211 to R213). -/

/-- The controller runs INIT, or has completed it: the byte loop is inside the key block and fills the empty buffer with
it, so that it never meets a full one. In contrast to `InitLoopOk` nothing is asked of STATUS or the latches. -/
inductive State.Initializing (s : State) : Prop where
  | seeding : s.ctrl.ctl = .iSeed → s.ctrl.caller = .init → s.Initializing
  | loading : s.ctrl.ctl = .byte → s.ctrl.caller = .init → s.ctrl.k.toNat < 64 →
      s.ctx.bufIdx.toNat = s.ctrl.k.toNat → s.Initializing
  | completed : s.ctrl.ctl = .idle → s.Initializing

theorem State.Initializing.not_compressing {s : State} (h : s.Initializing) : ¬ s.compressing := by
  cases h <;> simp [State.compressing, *]

theorem seedStep_initializing {s : State} (hcaller : s.ctrl.caller = .init) :
    (seedStep s).Initializing ∧ (seedStep s).dp = s.dp := by
  cases hkey : hasKey s.latches
  · rw [seedStep_of_noKey hkey]
    exact ⟨.completed rfl, rfl⟩
  · rw [seedStep_of_hasKey hkey]
    exact ⟨.loading rfl hcaller (Nat.zero_lt_succ _) rfl, rfl⟩

theorem byteStep_initializing {s : State} (hcaller : s.ctrl.caller = .init) (hk : s.ctrl.k.toNat < 64)
    (hfill : s.ctx.bufIdx.toNat = s.ctrl.k.toNat) : (byteStep s).Initializing ∧ (byteStep s).dp = s.dp := by
  have hcount : s.byteCount = 64 := by simp [State.byteCount, hcaller]
  have hroom : s.ctx.bufIdx.toNat < 64 := by omega
  rw [byteStep_of_room (hcount ▸ hk) (Context.full_of_lt hroom)]
  refine ⟨?_, byteTail_dp s⟩
  rw [byteTail]
  rcases byteNext_cases (s.withCtx (tailContext s.commandByte s.ctx)) with ⟨hmore, hnext, heq⟩ | heq
  · have hmore' : s.ctrl.k.toNat + 1 < 64 := hcount ▸ hmore
    have hnext' : (s.ctrl.k + 1).toNat = s.ctrl.k.toNat + 1 := hnext
    rw [heq]
    refine .loading rfl hcaller (hnext'.trans_lt hmore') ?_
    show (tailContext s.commandByte s.ctx).bufIdx.toNat = (s.ctrl.k + 1).toNat
    rw [tailContext_bufIdx _ hroom, hfill, hnext']
  · rw [heq]
    exact .completed (byteDone_ctl _)

theorem engineStep_initializing {s : State} (h : s.Initializing) :
    (engineStep s).Initializing ∧ (engineStep s).dp = s.dp := by
  cases h with
  | seeding hctl hcaller =>
    rw [engineStep_of_iSeed hctl]
    exact seedStep_initializing hcaller
  | loading hctl hcaller hk hfill =>
    rw [engineStep_of_byte hctl]
    exact byteStep_initializing hcaller hk hfill
  | completed hctl =>
    rw [engineStep_of_idle hctl]
    exact ⟨.completed hctl, rfl⟩

theorem engineRun_initializing {s : State} (h : s.Initializing) (n : Nat) :
    (engineRun n s).Initializing ∧ (engineRun n s).dp = s.dp := by
  induction n generalizing s with
  | zero => exact ⟨h, rfl⟩
  | succ n ih =>
    obtain ⟨hstep, hdp⟩ := engineStep_initializing h
    obtain ⟨hrun, hdp'⟩ := ih hstep
    exact ⟨hrun, hdp'.trans hdp⟩

/-! The command. -/

theorem commandSteps_init {s : State} (hp : paramOK s.regs.param = true) :
    commandSteps .init s = if klField s.regs.param = 0 then 1 else 65 := by
  simp [commandSteps, hp]

/-- R210 to R213: INIT with valid parameters is accepted and runs, BUSY all the way, to what the command-level function
gives. -/
theorem exec_init_run {s : State} (hb : s.busy = false) (hp : paramOK s.regs.param = true) :
    ∃ t u, exec .init s = .next t ∧ t.Initializing ∧ t.dp = s.dp ∧
      t.status = { s.status with ctxValid := false, dvalid := false } ∧
      BusyRun (commandSteps .init s) t u ∧ u.SameArchitecture (commandInit s) := by
  obtain ⟨u, hrun, hu⟩ := acceptInit_run (s.busy_eq_false.1 hb)
  rw [acceptInit_of_ok hp] at hrun
  exact ⟨_, u, exec_init_accepted hb hp, .seeding rfl rfl, rfl, rfl, hrun, hu⟩

/-- Settles O26. The run gives all but the datapath and the absence of a compression, which `Initializing` gives; the
context is the one described above, with or without a key. -/
theorem initBuildsTheContext : Obligations.InitBuildsTheContext := by
  intro s hb hds hkl hsl hpl
  have hp : paramOK s.regs.param = true := (paramOK_iff _).2 ⟨hds, hkl, hpl, hsl⟩
  obtain ⟨t, u, hexec, hinit, hdp, hstatus, hrun, hu⟩ := exec_init_run hb hp
  rw [commandInit_of_ok hp] at hu
  obtain ⟨hctx, hctl, hlatches, hregs, hst, hdreg, hout, hinputs, hdraws⟩ := hu
  have hbuilt : u.ctx = initContext (latchInit s).latches s.ctx := hctx
  obtain ⟨hh, ht, hsize⟩ := initContext_seeded (latchInit s).latches s.ctx
  rw [commandSteps_init hp] at hrun
  have hend := hrun.engineRun_eq
  refine ⟨t, u, hexec, hstatus, hend.symm,
    fun m hm => ⟨hrun.busy hm, (engineRun_initializing hinit m).1.not_compressing⟩,
    u.busy_eq_false.2 (hctl.trans (s.busy_eq_false.1 hb)), hst, fun i => ?_, hbuilt ▸ ht, ?_, fun hnone => ?_,
    fun hsome => ?_, hlatches, ?_, hregs, hdreg, hout, hinputs, hdraws⟩
  · rw [hbuilt, hh]
    exact Vector.getElem_ofFn i.isLt
  · rw [hbuilt, hsize]
    exact toNat_seeded_ds hds
  · rw [hbuilt, initContext_of_noKey (by simp [hasKey, latchInit, hnone])]
    exact ⟨rfl, rfl⟩
  · rw [hbuilt, initContext_of_hasKey (by simpa [hasKey, latchInit] using hsome)]
    exact ⟨rfl, rfl⟩
  · rw [← hend, (engineRun_initializing hinit _).2, hdp]

theorem runCommand_init_ctx {s : State} (hb : s.busy = false) (hp : paramOK s.regs.param = true) :
    (runCommand .init s).ctx = initContext (latchInit s).latches s.ctx := by
  obtain ⟨t, u, hexec, -, -, -, hrun, hctx, -⟩ := exec_init_run hb hp
  rw [runCommand_of_exec hexec, hrun.engineRun_eq, hctx, commandInit_of_ok hp]
  rfl

/-- Settles O40. Both contexts are built from the same operands, so they have the same meaning, and absorption keeps
it. -/
theorem initDiscardsTheOldContext : Obligations.InitDiscardsTheOldContext := by
  intro s t hs ht hregs hp
  have hlatch : initContext (latchInit t).latches t.ctx = initContext (latchInit s).latches t.ctx :=
    initContext_congr (congrArg OperandRegs.param hregs.symm) (congrArg OperandRegs.key hregs.symm)
      (congrArg OperandRegs.salt hregs.symm) (congrArg OperandRegs.pers hregs.symm) t.ctx
  have hsame : (runCommand .init s).ctx.SameMeaning (runCommand .init t).ctx := by
    rw [runCommand_init_ctx hs hp, runCommand_init_ctx ht (hregs ▸ hp), hlatch]
    exact initContext_sameMeaning _ _ _
  refine ⟨hsame, fun bs => (hsame.absorbBytes ?_ bs).finalState_eq⟩
  rw [runCommand_init_ctx hs hp]
  exact initContext_bufIdx_le _ _

end Sys2Proof.Machine

/-! PROOFS. The hex accessor of the host driver (45_finalizer.md R237). -/

namespace Sys2Proof.Machine

/-- A hexadecimal digit is the nibble's character of the alphabet, which has one for every nibble. -/
theorem alphabet_getElem? (n : BitVec 4) : "0123456789abcdef".toList[n.toNat]? = some (hexChar n) := by
  have hn : n.toNat < "0123456789abcdef".toList.length := n.isLt
  rw [hexChar, List.getD_eq_getElem _ _ hn, List.getElem?_eq_getElem hn]

theorem hexChar_mem (n : BitVec 4) : hexChar n ∈ "0123456789abcdef".toList :=
  List.mem_of_getElem? (alphabet_getElem? n)

theorem toNat_highNibble (b : Byte) : (b.extractLsb' 4 4).toNat = b.toNat / 16 := by
  rw [BitVec.extractLsb'_toNat, Nat.shiftRight_eq_div_pow]
  omega

theorem toNat_lowNibble (b : Byte) : (b.extractLsb' 0 4).toNat = b.toNat % 16 := BitVec.extractLsb'_toNat 0 4 b

theorem digestHex_cons (b : Byte) (d : List Byte) :
    digestHex (b :: d) = hexChar (b.extractLsb' 4 4) :: hexChar (b.extractLsb' 0 4) :: digestHex d := rfl

theorem digestHex_length (d : List Byte) : (digestHex d).length = 2 * d.length := by
  induction d with
  | nil => rfl
  | cons b d ih =>
    rw [digestHex_cons, List.length_cons, List.length_cons, ih, List.length_cons]
    omega

theorem digestHex_mem {d : List Byte} {ch : Char} (h : ch ∈ digestHex d) : ch ∈ "0123456789abcdef".toList := by
  obtain ⟨b, -, hb⟩ := List.mem_flatMap.1 h
  obtain rfl | rfl := List.mem_pair.1 hb
  · exact hexChar_mem _
  · exact hexChar_mem _

theorem digestHex_getElem? (d : List Byte) (k : Nat) (h : k < d.length) :
    (digestHex d)[2 * k]? = some (hexChar (d[k].extractLsb' 4 4)) ∧
      (digestHex d)[2 * k + 1]? = some (hexChar (d[k].extractLsb' 0 4)) := by
  induction d generalizing k with
  | nil => exact absurd h (Nat.not_lt_zero k)
  | cons b d ih =>
    cases k with
    | zero => exact ⟨rfl, rfl⟩
    | succ k => exact ih k (Nat.lt_of_succ_lt_succ h)

/-- Settles O54. -/
theorem hexDigestForm : Obligations.HexDigestForm := by
  refine fun d => ⟨digestHex_length d, fun _ => digestHex_mem, fun k h => ?_⟩
  rw [← toNat_highNibble, ← toNat_lowNibble, alphabet_getElem?, alphabet_getElem?]
  exact digestHex_getElem? d k h

end Sys2Proof.Machine

/-! PROOFS. DIGEST (45_finalizer.md R230 to R235): what it leaves at its end, and that no step of it writes the live
context. -/

namespace Sys2Proof.Machine

/-! An accepted command, run to its end, leaves what the command-level function gives (R258). -/

theorem commandAccepted_absorb {s : State} (hb : s.busy = false) (hv : s.status.ctxValid = true) {cnt : BitVec 3}
    (hcnt : cnt.toNat ≤ 4) : CommandAccepted (.absorb cnt) s :=
  ⟨s.busy_eq_false.1 hb, fun _ h => Instr.absorb.inj h ▸ hcnt, fun _ _ => hv⟩

theorem commandAccepted_digest {s : State} (hb : s.busy = false) (hv : s.status.ctxValid = true) :
    CommandAccepted .digest s :=
  ⟨s.busy_eq_false.1 hb, nofun, fun _ _ => hv⟩

theorem runCommand_sameArchitecture {i : Instr} {s : State} (ha : CommandAccepted i s)
    (hbuf : ∀ cnt, i = .absorb cnt → s.ctx.bufIdx.toNat ≤ 64) :
    (runCommand i s).SameArchitecture (commandLevel i s) := by
  obtain ⟨u, hrun, hu⟩ := commandEffect_run ha hbuf
  rwa [runCommand_of_exec (exec_of_accepted ha), hrun.engineRun_eq]

theorem runCommand_absorb {s : State} (hb : s.busy = false) (hv : s.status.ctxValid = true) {cnt : BitVec 3}
    (hcnt : cnt.toNat ≤ 4) (hbuf : s.ctx.bufIdx.toNat ≤ 64) :
    (runCommand (.absorb cnt) s).SameArchitecture (commandAbsorb cnt s) :=
  commandLevel_absorb hb hv hcnt ▸ runCommand_sameArchitecture (commandAccepted_absorb hb hv hcnt) fun _ _ => hbuf

theorem runCommand_digest {s : State} (hb : s.busy = false) (hv : s.status.ctxValid = true) :
    (runCommand .digest s).SameArchitecture (commandDigest s) :=
  commandLevel_digest hb hv ▸ runCommand_sameArchitecture (commandAccepted_digest hb hv) nofun

/-- Settles O29: the run of DIGEST's 84 steps ends in what the command level gives. -/
theorem digestExtractsTheDigest : Obligations.DigestExtractsTheDigest := by
  intro s hb hv
  have hidle := s.busy_eq_false.1 hb
  obtain ⟨u, hrun, hctx, hctl, hlatches, hregs, hstatus, hdreg, hout, hinputs, hdraws⟩ := acceptDigest_run hidle
  exact ⟨acceptDigest s, u, exec_digest_accepted hb hv, rfl, hrun.engineRun_eq.symm, fun _ => hrun.busy,
    u.busy_eq_false.2 (hctl.trans hidle), hdreg, hstatus, hctx, hlatches, hregs, hout, hinputs, hdraws⟩

theorem commandDigest_dreg (s : State) : (commandDigest s).dreg = extractDigest (finalState s.ctx) s.ctx.ds := rfl

theorem commandAbsorb_ctx (cnt : BitVec 3) (s : State) :
    (commandAbsorb cnt s).ctx = absorbBytes (dataBytes s.regs.data cnt) s.ctx := rfl

theorem commandAbsorb_status (cnt : BitVec 3) (s : State) :
    (commandAbsorb cnt s).status = { s.status with dvalid := false } := rfl

/-- Settles O38. `dreg` is a function of the context, and DIGEST writes nothing that ABSORB reads; of STATUS
it writes DVALID alone, which ABSORB clears. -/
theorem digestRepeatsAndIsTransparent : Obligations.DigestRepeatsAndIsTransparent := by
  refine ⟨fun s t hs ht hsv htv hctx => ?_, fun s cnt hb hv hcnt hbuf => ?_⟩
  · obtain ⟨hsctx, -, -, -, -, hsdreg, -⟩ := runCommand_digest hs hsv
    obtain ⟨-, -, -, -, -, htdreg, -⟩ := runCommand_digest ht htv
    have hsame : t.ctx = s.ctx := hctx.trans hsctx
    rw [hsdreg, htdreg, commandDigest_dreg, commandDigest_dreg, hsame]
  · have hdigest := runCommand_digest hb hv
    generalize runCommand .digest s = d at hdigest ⊢
    obtain ⟨(hctx : d.ctx = s.ctx), hctl, -, (hregs : d.regs = s.regs),
      (hstatus : d.status = { s.status with dvalid := true }), -⟩ := hdigest
    have hdb : d.busy = false := d.busy_eq_false.2 (hctl.trans (s.busy_eq_false.1 hb))
    have hdv : d.status.ctxValid = true := hstatus ▸ hv
    obtain ⟨hctxAfter, -, -, -, hstatusAfter, -⟩ := runCommand_absorb hdb hdv hcnt (hctx ▸ hbuf)
    obtain ⟨hctxWithout, -, -, -, hstatusWithout, -⟩ := runCommand_absorb hb hv hcnt hbuf
    constructor
    · rw [hctxAfter, hctxWithout, commandAbsorb_ctx, commandAbsorb_ctx, hctx, hregs]
    · rw [hstatusAfter, hstatusWithout, commandAbsorb_status, commandAbsorb_status, hstatus]

/-! No step of DIGEST writes the context (R233). -/

/-- The controller runs DIGEST (R231 to R234), or has completed it. -/
inductive State.Digesting (s : State) : Prop where
  | snapshot : s.ctrl.ctl = .dSnap → s.Digesting
  | compressing : s.compressing → s.ctrl.caller = .digest → s.ctrl.ret = .dOut → s.Digesting
  | extracting : s.ctrl.ctl = .dOut → s.Digesting
  | completed : s.ctrl.ctl = .idle → s.Digesting

/-- What DIGEST leaves alone and another command writes: the context, STATUS but for DVALID, and `k`. -/
structure State.SameLiveContext (s t : State) : Prop where
  ctx : t.ctx = s.ctx
  status : t.status = { s.status with dvalid := t.status.dvalid }
  k : t.ctrl.k = s.ctrl.k

theorem State.SameLiveContext.ctxValid {s t : State} (h : s.SameLiveContext t) :
    t.status.ctxValid = s.status.ctxValid := by
  rw [h.status]

theorem State.SameLiveContext.trans {s t u : State} (h : s.SameLiveContext t) (h' : t.SameLiveContext u) :
    s.SameLiveContext u :=
  ⟨h'.ctx.trans h.ctx, h'.status.trans (by rw [h.status]), h'.k.trans h.k⟩

/-- A G call writes the working vector, the round and call index, and the controller state if it is the last. -/
theorem mixStep_cases (s : State) :
    ∃ ctl r j, (ctl = s.ctrl.ctl ∨ ctl = .cOut) ∧
      mixStep s = (s.withDp { s.dp with v := mixCall s.dp.m s.ctrl.r s.ctrl.j s.dp.v }).withCtrl
        { s.ctrl with ctl := ctl, r := r, j := j } := by
  unfold mixStep
  split_ifs
  · exact ⟨_, _, _, .inl rfl, rfl⟩
  · exact ⟨_, _, _, .inl rfl, rfl⟩
  · exact ⟨_, _, _, .inr rfl, rfl⟩

/-- With DIGEST's registers `C_OUT` writes the snapshot state `hs` (R231). -/
theorem outStep_of_digest {s : State} (hcaller : s.ctrl.caller = .digest) (hret : s.ctrl.ret = .dOut) :
    outStep s = goto .dOut (s.withDp { s.dp with hs := outWords s.ctx.h s.dp.v }) := by
  simp [outStep, writeHdst, hcaller, hret]

theorem engineStep_digesting {s : State} (h : s.Digesting) :
    (engineStep s).Digesting ∧ s.SameLiveContext (engineStep s) := by
  cases h with
  | snapshot hctl =>
    have hstep : engineStep s = snapStep s := by rw [engineStep, hctl]
    rw [hstep]
    exact ⟨.compressing (.inl rfl) rfl rfl, rfl, rfl, rfl⟩
  | compressing hctl hcaller hret =>
    obtain hload | hmix | hout := hctl
    · rw [engineStep_of_cLoad hload]
      exact ⟨.compressing (.inr (.inl rfl)) hcaller hret, rfl, rfl, rfl⟩
    · obtain ⟨ctl, r, j, hnext, heq⟩ := mixStep_cases s
      rw [engineStep_of_cG hmix, heq]
      exact ⟨.compressing (.inr (hmix ▸ hnext)) hcaller hret, rfl, rfl, rfl⟩
    · rw [engineStep_of_cOut hout, outStep_of_digest hcaller hret]
      exact ⟨.extracting rfl, rfl, rfl, rfl⟩
  | extracting hctl =>
    rw [engineStep_of_dOut hctl]
    exact ⟨.completed rfl, rfl, rfl, rfl⟩
  | completed hctl =>
    rw [engineStep_of_idle hctl]
    exact ⟨.completed hctl, rfl, rfl, rfl⟩

theorem engineRun_digesting {s : State} (h : s.Digesting) (n : Nat) : s.SameLiveContext (engineRun n s) := by
  induction n generalizing s with
  | zero => exact ⟨rfl, rfl, rfl⟩
  | succ n ih =>
    obtain ⟨hstep, hsame⟩ := engineStep_digesting h
    exact hsame.trans (ih hstep)

/-- Settles O30. The latches and the operand registers are written by no controller step at all. -/
theorem digestDoesNotMutate : Obligations.DigestDoesNotMutate := by
  intro s t n hb hv hexec
  obtain rfl : acceptDigest s = t := Host.Outcome.next.inj ((exec_digest_accepted hb hv).symm.trans hexec)
  have hsame := engineRun_digesting (s := acceptDigest s) (.snapshot rfl) n
  exact ⟨hsame.ctx, hsame.ctxValid, hsame.status, engineRun_latches n _, engineRun_regs n _, hsame.k⟩

end Sys2Proof.Machine

/-! PROOFS. The acceptance of a command (46_command_control.md R250, R251, R253, R256): what a CMD write runs, and what
`exec` leaves unchanged. -/

namespace Sys2Proof.Machine

/-! Steps (R255, R270). -/

theorem cycle_next (c : Cycle) (s : State) : ∃ t, cycle c s = .next t := by
  cases hrst : c.rst
  · obtain ⟨t, ht⟩ := serve_next c s
    rw [cycle_of_running hrst, ht]
    exact ⟨_, rfl⟩
  · exact ⟨_, cycle_of_reset hrst s⟩

/-- Settles O6. -/
theorem everyStepIsSafe : Obligations.EveryStepIsSafe := by
  intro s
  unfold SafeStep step
  cases s.inputs with
  | nil => exact cycle_next _ s
  | cons c rest => exact cycle_next c _

/-! The step of a CMD write (R250, R251). -/

theorem step_of_input {s : State} {c : Cycle} {rest : List Cycle} (h : s.inputs = c :: rest) :
    step s = cycle c (s.withInputs rest) := by
  rw [step, h]

/-- A supported write to CMD presents its word. -/
theorem serve_of_cmdWrite {c : Cycle} (hsel : c.sel = true) (hwe : c.we = true) (haddr : c.addr = 0x00)
    (hbe : c.be = 0xF) (s : State) : serve c s = present c.wdata (s.withOut { ready := true, rdata := none }) := by
  have hsup : c.supported = true := Cycle.supported_eq_true.2 ⟨by rw [haddr]; rfl, hbe⟩
  rw [serve_of_write hsel hwe, serveWrite_of_supported hsup, haddr]
  rfl

theorem decodeTableWord_eq_some {nbits w : Nat} {i : Instr} (h : decodeTableWord nbits w = some i) :
    decode (BitVec.ofNat 32 (w % 2 ^ nbits)) = .instr i := by
  unfold decodeTableWord at h
  cases hd : decode (BitVec.ofNat 32 (w % 2 ^ nbits)) with
  | instr j =>
    rw [hd] at h
    exact congrArg _ (Option.some.inj h)
  | rejected why =>
    rw [hd] at h
    exact absurd h nofun

/-- A CMD write runs `exec` of its instruction and then, if BUSY was 1, the controller steps of its cycle. -/
theorem step_of_cmdWrite {s : State} {c : Cycle} {rest : List Cycle} {i : Instr} (hin : s.inputs = c :: rest)
    (hrst : c.rst = false) (hsel : c.sel = true) (hwe : c.we = true) (haddr : c.addr = 0x00) (hbe : c.be = 0xF)
    (hdecode : decode c.wdata = .instr i) :
    step s = onNext (exec i ((s.withInputs rest).withOut { ready := true, rdata := none }))
      (fun t => bif s.busy then engineRun c.engineSteps t else t) := by
  rw [step_of_input hin, cycle_of_running hrst, serve_of_cmdWrite hsel hwe haddr hbe, present_of_instr hdecode]
  rfl

/-- Settles O5. With BUSY = 0 the cycle of the write takes no controller step. -/
theorem stepRunsDecodedCommand : Obligations.StepRunsDecodedCommand := by
  refine ⟨fun s c rest i => step_of_cmdWrite, fun s nbits w i hb hw => ?_⟩
  have hstep := step_of_cmdWrite (s := s.withFetchWord nbits w) rfl rfl rfl rfl rfl rfl (decodeTableWord_eq_some hw)
  have hrest : (s.withFetchWord nbits w).withInputs s.inputs = s := rfl
  have hbusy : (s.withFetchWord nbits w).busy = false := hb
  obtain ⟨t, ht⟩ := exec_next i (s.withOut { ready := true, rdata := none })
  rw [hrest, ht, onNext_next, hbusy] at hstep
  exact hstep.trans ht.symm

/-! Acceptance and refusal (R251). -/

theorem commandAccepted_nop {s : State} (hb : s.busy = false) : CommandAccepted .nop s :=
  ⟨s.busy_eq_false.1 hb, nofun, fun hn => absurd rfl hn⟩

theorem commandAccepted_init {s : State} (hb : s.busy = false) : CommandAccepted .init s :=
  ⟨s.busy_eq_false.1 hb, nofun, fun _ hn => absurd rfl hn⟩

/-- A command is accepted, or refused with an error that `exec` and the command level record alike. -/
theorem exec_accepted_or_refused (i : Instr) (s : State) :
    CommandAccepted i s ∨
      ∃ code, exec i s = .next (raiseError code 0 s) ∧ commandLevel i s = raiseError code 0 s := by
  cases hb : s.busy with
  | true =>
    refine .inr ⟨.busyCmd, exec_of_busy hb i, ?_⟩
    cases i <;> simp only [commandLevel, accepting_of_busy hb]
  | false =>
    cases i with
    | nop => exact .inl (commandAccepted_nop hb)
    | init => exact .inl (commandAccepted_init hb)
    | absorb cnt =>
      by_cases hcnt : cnt.toNat ≤ 4
      · cases hv : s.status.ctxValid
        · exact .inr ⟨.noContext, by simp [exec, execAbsorb, accepting, hb, hcnt, hv],
            by simp [commandLevel, accepting, hb, hcnt, hv]⟩
        · exact .inl (commandAccepted_absorb hb hv hcnt)
      · exact .inr ⟨.illegalCmd, exec_absorb_of_count hb (by omega), by simp [commandLevel, accepting, hb, hcnt]⟩
    | digest =>
      cases hv : s.status.ctxValid
      · exact .inr ⟨.noContext, by simp [exec, execDigest, accepting, hb, hv],
          by simp [commandLevel, accepting, hb, hv]⟩
      · exact .inl (commandAccepted_digest hb hv)

/-- Settles O25. -/
theorem nopChangesNothing : Obligations.NopChangesNothing :=
  ⟨(decode_eq_instr_iff_encode _ _).2 ⟨rfl, rfl⟩, fun _ hb => exec_of_accepted (commandAccepted_nop hb),
    fun _ hb => exec_of_busy hb .nop, State.reset, exec_of_accepted (commandAccepted_nop rfl), by decide⟩

/-! The frame of acceptance (R253, R254, R278). -/

/-- The two states agree in all that acceptance leaves alone: all but the latches, the controller and STATUS. -/
structure State.SameOutsideAcceptance (s t : State) : Prop where
  ctx : t.ctx = s.ctx
  dp : t.dp = s.dp
  regs : t.regs = s.regs
  dreg : t.dreg = s.dreg
  out : t.out = s.out
  inputs : t.inputs = s.inputs
  draws : t.draws = s.draws

theorem raiseError_frame (code : ErrCode) (pc : BitVec 4) (s : State) :
    s.SameOutsideAcceptance (raiseError code pc s) := by
  constructor <;> simp

theorem acceptInit_frame (s : State) : s.SameOutsideAcceptance (acceptInit s) := by
  cases hp : paramOK s.regs.param
  · rw [acceptInit_of_bad hp]
    constructor <;> simp [setCtxValid, clearDvalid, latchInit]
  · rw [acceptInit_of_ok hp]
    exact ⟨rfl, rfl, rfl, rfl, rfl, rfl, rfl⟩

theorem commandEffect_frame (i : Instr) (s : State) : s.SameOutsideAcceptance (commandEffect i s) := by
  cases i with
  | init => exact acceptInit_frame s
  | nop => exact ⟨rfl, rfl, rfl, rfl, rfl, rfl, rfl⟩
  | absorb cnt => exact ⟨rfl, rfl, rfl, rfl, rfl, rfl, rfl⟩
  | digest => exact ⟨rfl, rfl, rfl, rfl, rfl, rfl, rfl⟩

/-- Settles O31. -/
theorem acceptanceFrame : Obligations.AcceptanceFrame := by
  intro i s t ht
  obtain ⟨hctx, hdp, hregs, hdreg, hout, hinputs, hdraws⟩ : s.SameOutsideAcceptance t := by
    rcases exec_accepted_or_refused i s with ha | ⟨code, hexec, -⟩
    · cases (exec_of_accepted ha).symm.trans ht
      exact commandEffect_frame i s
    · cases hexec.symm.trans ht
      exact raiseError_frame code 0 s
  exact ⟨hctx, hdp, hregs, hdreg, hout, hinputs, hdraws⟩

/-! Latching (R253, R210). -/

/-- INIT latches its operands before the parameter check. -/
theorem acceptInit_latches (s : State) : (acceptInit s).latches = (latchInit s).latches := by
  cases hp : paramOK s.regs.param
  · rw [acceptInit_of_bad hp, raiseError_latches]
    rfl
  · rw [acceptInit_of_ok hp]
    rfl

/-- The controller does not see an operand register: a store commutes with its steps. -/
theorem engineRun_storeOperand (n : Nat) (reg : Reg) (w : Word) (s : State) :
    engineRun n (storeOperand reg w s) = storeOperand reg w (engineRun n s) := by
  have hstore : ∀ x : State, storeOperand reg w x = x.withHost { x.host with regs := storeReg reg w x.regs } :=
    fun _ => rfl
  rw [hstore s, engineRun_withHost, hstore (engineRun n s), engineRun_host, engineRun_regs]

/-- Settles O32. -/
theorem operandsAreLatched : Obligations.OperandsAreLatched :=
  ⟨fun s hb => ⟨_, exec_of_accepted (commandAccepted_init hb), acceptInit_latches s⟩,
    fun _ _ hb hv hcnt => ⟨_, exec_absorb_accepted hb hv hcnt, rfl⟩,
    fun s hb => ⟨s, exec_of_accepted (commandAccepted_nop hb), rfl⟩,
    fun _ hb hv => ⟨_, exec_digest_accepted hb hv, rfl⟩,
    fun s reg w n => engineRun_storeOperand n reg w s⟩

end Sys2Proof.Machine

/-! PROOFS. Commands run to their ends (46_command_control.md R255, R257, R258): the refinement of the command level, the
number of steps, and what each command may write. -/

namespace Sys2Proof.Machine

/-- Settles O34. A refused command leaves the controller in IDLE, where further steps do nothing. -/
theorem controllerRefinesCommandLevel : Obligations.ControllerRefinesCommandLevel := by
  intro i s hb hbuf
  rcases exec_accepted_or_refused i s with ha | ⟨code, hexec, hlevel⟩
  · obtain ⟨u, hrun, hu⟩ := commandEffect_run ha fun _ _ => hbuf
    exact ⟨_, exec_of_accepted ha, hrun.engineRun_eq.symm ▸ hu⟩
  · have hidle : (raiseError code 0 s).ctrl.ctl = .idle := by simpa using s.busy_eq_false.1 hb
    refine ⟨_, hexec, ?_⟩
    rw [engineRun_of_idle hidle, hlevel]
    exact ⟨rfl, rfl, rfl, rfl, rfl, rfl, rfl, rfl, rfl⟩

/-! The number of steps of a command (R255). -/

theorem commandInit_ctrl (s : State) : (commandInit s).ctrl = s.ctrl := by
  cases hp : paramOK s.regs.param
  · rw [commandInit_of_bad hp, raiseError_ctrl]
    rfl
  · rw [commandInit_of_ok hp]
    rfl

/-- The command level knows no controller. -/
theorem commandLevel_ctrl (i : Instr) (s : State) : (commandLevel i s).ctrl = s.ctrl := by
  rcases exec_accepted_or_refused i s with ha | ⟨code, -, hlevel⟩
  · have hb := s.busy_eq_false.2 ha.idle
    cases i with
    | nop => rw [commandLevel_nop hb]
    | init => rw [commandLevel_init hb, commandInit_ctrl]
    | absorb cnt =>
      rw [commandLevel_absorb hb (ha.context nofun nofun) (ha.absorbCount cnt rfl)]
      rfl
    | digest =>
      rw [commandLevel_digest hb (ha.context nofun nofun)]
      rfl
  · rw [hlevel, raiseError_ctrl]

/-- An accepted command ends in IDLE, BUSY in every one of its steps and at none after. -/
theorem commandEffect_run_completes {i : Instr} {s : State} (ha : CommandAccepted i s)
    (hbuf : ∀ cnt, i = .absorb cnt → s.ctx.bufIdx.toNat ≤ 64) :
    ∃ u, BusyRun (commandSteps i s) (commandEffect i s) u ∧ u.busy = false := by
  obtain ⟨u, hrun, -, hctl, -⟩ := commandEffect_run ha hbuf
  exact ⟨u, hrun, u.busy_eq_false.2 (hctl.trans ((congrArg _ (commandLevel_ctrl i s)).trans ha.idle))⟩

/-! The controller always comes to rest (R255): a bound on its steps to IDLE that every step lowers. It holds in every
state, those no run reaches included. -/

/-- The bytes of the running command's sequence that are still to be stored. -/
def State.bytesLeft (s : State) : Nat := s.byteCount - s.ctrl.k.toNat

/-- A bound on the steps that follow the return from a compression. -/
def State.returnBound (s : State) : Nat :=
  match s.ctrl.ret with
  | .byteTail => 83 * s.bytesLeft
  | .dOut => 1

/-- A bound on the steps to IDLE. A byte takes at most 83: its own, and the 82 of a compression. -/
def State.stepBound (s : State) : Nat :=
  match s.ctrl.ctl with
  | .idle => 0
  | .iSeed => 83 * 65 + 1
  | .byte => 83 * (s.bytesLeft + 1)
  | .dSnap => 84
  | .cLoad => 82 + s.returnBound
  | .cG => 81 - (8 * s.ctrl.r.val + s.ctrl.j.val) + s.returnBound
  | .cOut => 1 + s.returnBound
  | .dOut => 1

theorem stepBound_of_idle {s : State} (h : s.ctrl.ctl = .idle) : s.stepBound = 0 := by
  rw [State.stepBound, h]

theorem stepBound_of_byte {s : State} (h : s.ctrl.ctl = .byte) : s.stepBound = 83 * (s.bytesLeft + 1) := by
  rw [State.stepBound, h]

theorem stepBound_of_cG {s : State} (h : s.ctrl.ctl = .cG) :
    s.stepBound = 81 - (8 * s.ctrl.r.val + s.ctrl.j.val) + s.returnBound := by
  rw [State.stepBound, h]

theorem stepBound_byteDone (s : State) : (byteDone s).stepBound = 0 := stepBound_of_idle (byteDone_ctl s)

/-- Once a byte is stored, one byte fewer is left. -/
theorem stepBound_byteNext_le (s : State) : (byteNext s).stepBound ≤ 83 * s.bytesLeft := by
  rcases byteNext_cases s with ⟨hmore, hk, heq⟩ | heq
  · have hleft : (byteNext s).bytesLeft = s.byteCount - (s.ctrl.k + 1).toNat := by rw [heq]; rfl
    rw [stepBound_of_byte (by rw [heq]; rfl), hleft, State.bytesLeft]
    omega
  · rw [heq, stepBound_byteDone]
    exact Nat.zero_le _

theorem stepBound_byteTail_le (s : State) : (byteTail s).stepBound ≤ 83 * s.bytesLeft :=
  stepBound_byteNext_le (s.withCtx (tailContext s.commandByte s.ctx))

theorem stepBound_byteStep_lt (s : State) : (byteStep s).stepBound < 83 * (s.bytesLeft + 1) := by
  by_cases hk : s.ctrl.k.toNat < s.byteCount
  · cases hf : s.ctx.full
    · rw [byteStep_of_room hk hf]
      exact (stepBound_byteTail_le s).trans_lt (by omega)
    · rw [byteStep_of_full hk hf]
      show 82 + 83 * s.bytesLeft < _
      omega
  · rw [byteStep_of_end hk, stepBound_byteDone]
    omega

theorem stepBound_seedStep_le (s : State) : (seedStep s).stepBound ≤ 83 * 65 := by
  cases hkey : hasKey s.latches
  · rw [seedStep_of_noKey hkey]
    exact Nat.zero_le _
  · rw [seedStep_of_hasKey hkey, stepBound_of_byte rfl]
    exact Nat.mul_le_mul_left 83 (Nat.succ_le_succ ((Nat.sub_le _ _).trans (byteCount_le _)))

/-- The call and round index count the G calls made. -/
theorem stepBound_mixStep_lt {s : State} (h : s.ctrl.ctl = .cG) : (mixStep s).stepBound < s.stepBound := by
  have hr := s.ctrl.r.isLt
  have hj := s.ctrl.j.isLt
  rw [stepBound_of_cG h]
  simp only [mixStep, goto]
  split_ifs with hj7 hr9
  · rw [stepBound_of_cG (by exact h)]
    show 81 - (8 * s.ctrl.r.val + (s.ctrl.j.val + 1)) + s.returnBound < _
    omega
  · rw [stepBound_of_cG (by exact h)]
    show 81 - (8 * (s.ctrl.r.val + 1) + 0) + s.returnBound < _
    omega
  · show 1 + s.returnBound < _
    omega

theorem stepBound_outStep_le (s : State) : (outStep s).stepBound ≤ s.returnBound := by
  have hreturn : (writeHdst s).returnBound = s.returnBound := by
    simp [State.returnBound, State.bytesLeft, State.byteCount]
  rw [← hreturn, outStep, State.returnBound]
  cases (writeHdst s).ctrl.ret
  · exact stepBound_byteTail_le (writeHdst s)
  · exact Nat.le_refl 1

theorem stepBound_engineStep_lt {s : State} (hb : s.busy = true) : (engineStep s).stepBound < s.stepBound := by
  unfold engineStep
  conv_rhs => unfold State.stepBound
  cases hc : s.ctrl.ctl with
  | idle => exact absurd hc (s.busy_eq_true.1 hb)
  | iSeed => exact Nat.lt_succ_of_le (stepBound_seedStep_le s)
  | byte => exact stepBound_byteStep_lt s
  | dSnap => exact Nat.lt_succ_self 83
  | cLoad => exact Nat.add_lt_add_right (Nat.lt_succ_self 81) s.returnBound
  | cG => exact (stepBound_mixStep_lt hc).trans_eq (stepBound_of_cG hc)
  | cOut => exact Nat.lt_one_add_iff.2 (stepBound_outStep_le s)
  | dOut => exact Nat.zero_lt_one

theorem engineRun_busy_eq_false {s : State} {n : Nat} (h : s.stepBound ≤ n) : (engineRun n s).busy = false := by
  induction n generalizing s with
  | zero =>
    cases hb : s.busy
    · exact hb
    · exact absurd (stepBound_engineStep_lt hb) (by omega)
  | succ n ih =>
    cases hb : s.busy
    · rwa [engineRun_of_idle (s.busy_eq_false.1 hb)]
    · exact ih (Nat.le_of_lt_succ ((stepBound_engineStep_lt hb).trans_le h))

/-- Settles O35. A command refused in IDLE is not BUSY after `exec`; an accepted one has its run. -/
theorem everyCommandCompletes : Obligations.EveryCommandCompletes := by
  refine ⟨fun s => ⟨s.stepBound, engineRun_busy_eq_false (Nat.le_refl _)⟩, fun s t i hb hbuf hexec htb => ?_⟩
  rcases exec_accepted_or_refused i s with ha | ⟨code, hrefused, -⟩
  · cases (exec_of_accepted ha).symm.trans hexec
    obtain ⟨u, hrun, hidle⟩ := commandEffect_run_completes ha fun _ _ => hbuf
    exact ⟨fun m => hrun.busy, hrun.engineRun_eq.symm ▸ hidle⟩
  · cases hrefused.symm.trans hexec
    rw [raiseError_busy, hb] at htb
    exact absurd htb nofun

/-! What a command writes (R257). -/

theorem runCommand_busy {i : Instr} {s : State} (ha : CommandAccepted i s)
    (hbuf : ∀ cnt, i = .absorb cnt → s.ctx.bufIdx.toNat ≤ 64) : (runCommand i s).busy = false := by
  obtain ⟨u, hrun, hidle⟩ := commandEffect_run_completes ha hbuf
  rwa [runCommand_of_exec (exec_of_accepted ha), hrun.engineRun_eq]

theorem runCommand_init {s : State} (hb : s.busy = false) : (runCommand .init s).SameArchitecture (commandInit s) :=
  commandLevel_init hb ▸ runCommand_sameArchitecture (commandAccepted_init hb) nofun

theorem raiseError_eq_withErrorOf (code : ErrCode) (pc : BitVec 4) (s : State) :
    raiseError code pc s = s.withErrorOf (raiseError code pc s).status := by
  rw [raiseError_eq_withStatus]
  rfl

/-- A word that needs a context decodes, if it does, to an instruction that needs one. -/
theorem decode_needsContext {w : Word} {i : Instr} (hw : NeedsContext w) (h : decode w = .instr i) :
    i ≠ .nop ∧ i ≠ .init := by
  obtain ⟨-, -, -, hop⟩ := (decode_eq_instr_iff w i).1 h
  have hmem : opCode i ∈ [(0x2 : BitVec 4), 0x3] := hop ▸ hw
  constructor <;> rintro rfl <;> exact absurd hmem (by decide)

/-- R251: the CMD writes that are refused before the command's own effect. -/
theorem present_refused {s : State} {w : Word}
    (h : s.busy = true ∨ ¬ LegalWord w ∨ (NeedsContext w ∧ s.status.ctxValid = false)) :
    ∃ code, present w s = .next (raiseError code 0 s) := by
  cases hb : s.busy with
  | true => exact ⟨_, present_of_busy hb w⟩
  | false =>
    cases hd : decode w with
    | rejected why => exact ⟨_, present_of_rejected hd hb⟩
    | instr i =>
      rw [present_of_instr hd]
      rcases exec_accepted_or_refused i s with ha | ⟨code, hexec, -⟩
      · rcases h with hbusy | hillegal | ⟨hneeds, hv⟩
        · exact absurd hbusy (by simp [hb])
        · exact absurd ((decode_isInstr_iff_legalWord w).1 ⟨i, hd⟩) hillegal
        · obtain ⟨hnop, hinit⟩ := decode_needsContext hneeds hd
          exact absurd (ha.context hnop hinit) (by simp [hv])
      · exact ⟨code, hexec⟩

/-- Settles O33: a row for each command from its command-level function, and the refused CMD writes. -/
theorem commandWriteTable : Obligations.CommandWriteTable := by
  refine ⟨fun s hb => ?_, fun s hb hp => ?_, fun s hb hp => ?_, fun s cnt hb hv hcnt hbuf => ?_, fun s hb hv => ?_,
    fun s t w hrefused ht => ?_⟩
  · exact runCommand_of_exec (exec_of_accepted (commandAccepted_nop hb))
  · obtain ⟨hctx, -, -, -, hstatus, hdreg, -⟩ := runCommand_init hb
    rw [hctx, hstatus, hdreg, commandInit_of_bad hp]
    refine ⟨?_, ?_, runCommand_busy (commandAccepted_init hb) nofun, ?_, ?_⟩ <;>
      simp [setCtxValid, clearDvalid, latchInit]
  · obtain ⟨hctx, -, -, -, hstatus, hdreg, -⟩ := runCommand_init hb
    rw [hctx, hstatus, hdreg, commandInit_of_ok hp]
    exact ⟨(initContext_seeded _ _).2.1, rfl, runCommand_busy (commandAccepted_init hb) nofun, rfl, rfl⟩
  · obtain ⟨hctx, -, -, -, hstatus, hdreg, -⟩ := runCommand_absorb hb hv hcnt hbuf
    rw [hctx, hstatus, hdreg]
    exact ⟨absorbBytes_ds _ _, hv, rfl, rfl, runCommand_busy (commandAccepted_absorb hb hv hcnt) fun _ _ => hbuf⟩
  · obtain ⟨hctx, -, -, -, hstatus, -⟩ := runCommand_digest hb hv
    rw [hctx, hstatus]
    exact ⟨rfl, hv, rfl, runCommand_busy (commandAccepted_digest hb hv) nofun⟩
  · obtain ⟨code, hcode⟩ := present_refused hrefused
    cases hcode.symm.trans ht
    exact raiseError_eq_withErrorOf code 0 s

end Sys2Proof.Machine

/-! PROOFS. What a host sees while a command runs (46_command_control.md R254; 70_reset_and_hazards.md R311). -/

namespace Sys2Proof.Machine

/-- Unless the step ends the command, it leaves STATUS and the digest storage. -/
def State.QuietUnlessDone (s t : State) : Prop := t.busy = true → t.status = s.status ∧ t.dreg = s.dreg

theorem quietUnlessDone_of_idle {s t : State} (h : t.ctrl.ctl = .idle) : s.QuietUnlessDone t :=
  fun hb => absurd h (t.busy_eq_true.1 hb)

theorem byteNext_quietUnlessDone (s : State) : s.QuietUnlessDone (byteNext s) := by
  rcases byteNext_cases s with ⟨-, -, heq⟩ | heq <;> rw [heq]
  · exact fun _ => ⟨rfl, rfl⟩
  · exact quietUnlessDone_of_idle (byteDone_ctl s)

theorem byteTail_quietUnlessDone (s : State) : s.QuietUnlessDone (byteTail s) :=
  byteNext_quietUnlessDone (s.withCtx (tailContext s.commandByte s.ctx))

theorem writeHdst_dreg (s : State) : (writeHdst s).dreg = s.dreg := by
  unfold writeHdst
  cases s.ctrl.caller <;> rfl

theorem outStep_quietUnlessDone (s : State) : s.QuietUnlessDone (outStep s) := by
  unfold State.QuietUnlessDone
  rw [← writeHdst_status s, ← writeHdst_dreg s, outStep]
  cases (writeHdst s).ctrl.ret
  · exact byteTail_quietUnlessDone (writeHdst s)
  · exact fun _ => ⟨rfl, rfl⟩

theorem seedStep_quietUnlessDone (s : State) : s.QuietUnlessDone (seedStep s) := by
  cases hkey : hasKey s.latches
  · rw [seedStep_of_noKey hkey]
    exact quietUnlessDone_of_idle rfl
  · rw [seedStep_of_hasKey hkey]
    exact fun _ => ⟨rfl, rfl⟩

theorem byteStep_quietUnlessDone (s : State) : s.QuietUnlessDone (byteStep s) := by
  by_cases hk : s.ctrl.k.toNat < s.byteCount
  · cases hf : s.ctx.full
    · rw [byteStep_of_room hk hf]
      exact byteTail_quietUnlessDone s
    · rw [byteStep_of_full hk hf]
      exact fun _ => ⟨rfl, rfl⟩
  · rw [byteStep_of_end hk]
    exact quietUnlessDone_of_idle (byteDone_ctl s)

theorem mixStep_quietUnlessDone (s : State) : s.QuietUnlessDone (mixStep s) := by
  obtain ⟨ctl, r, j, -, heq⟩ := mixStep_cases s
  rw [heq]
  exact fun _ => ⟨rfl, rfl⟩

theorem engineStep_quietUnlessDone (s : State) : s.QuietUnlessDone (engineStep s) := by
  unfold engineStep
  cases hc : s.ctrl.ctl with
  | idle => exact quietUnlessDone_of_idle hc
  | iSeed => exact seedStep_quietUnlessDone s
  | byte => exact byteStep_quietUnlessDone s
  | dSnap => exact fun _ => ⟨rfl, rfl⟩
  | cLoad => exact fun _ => ⟨rfl, rfl⟩
  | cG => exact mixStep_quietUnlessDone s
  | cOut => exact outStep_quietUnlessDone s
  | dOut => exact quietUnlessDone_of_idle rfl

/-- Settles O37. In a state of the invariant DVALID is 0 while a command runs, and it masks the digest registers. -/
theorem busyShowsWhatAcceptanceLeft : Obligations.BusyShowsWhatAcceptanceLeft := by
  intro s hinv hb
  refine ⟨engineStep_quietUnlessDone s, fun i => ?_⟩
  have hmask := (digestRegistersAreMasked s i).1
  rwa [hinv.dvalid_of_running (s.busy_eq_true.1 hb)] at hmask

end Sys2Proof.Machine

/-! PROOFS. Accesses at rest (70_reset_and_hazards.md R287): one that is no CMD write touches the host's part of the
state alone. -/

namespace Sys2Proof.Machine

theorem State.OnlyHostWritten.sameEngine {s t : State} (h : s.OnlyHostWritten t) : s.SameEngine t := by
  obtain ⟨heq, -⟩ := h
  exact heq ▸ s.sameEngine_withHost t.host

theorem serveWrite_onlyHostWritten {c : Cycle} (hcmd : c.addr ≠ 0x00) {s t : State} (h : serveWrite c s = .next t) :
    s.OnlyHostWritten t := by
  rcases serveWrite_cases hcmd s with ⟨regs, heq, -⟩ | ⟨-, heq⟩ <;> cases heq.symm.trans h
  · exact ⟨rfl, id⟩
  · exact (s.withOut_onlyHostWritten _).trans (writeStatus_onlyHostWritten _ _)

/-- An access that is no CMD write accepts no command. -/
theorem serve_onlyHostWritten_of_notCmd {c : Cycle} (hc : c.sel = false ∨ c.we = false ∨ c.addr ≠ 0x00) {s t : State}
    (h : serve c s = .next t) : s.OnlyHostWritten t := by
  cases hsel : c.sel
  · cases (serve_of_not_selected hsel s).symm.trans h
    exact s.withOut_onlyHostWritten _
  cases hwe : c.we
  · cases (serve_of_read hsel hwe s).symm.trans h
    exact serveRead_onlyHostWritten c s
  · have hcmd : c.addr ≠ 0x00 := (hc.resolve_left (by simp [hsel])).resolve_left (by simp [hwe])
    exact serveWrite_onlyHostWritten hcmd (serve_of_write hsel hwe s ▸ h)

/-- Settles O19. With BUSY = 0 the cycle is its access alone. -/
theorem restKeepsTheContext : Obligations.RestKeepsTheContext := by
  intro s t c hb hrst hc ht
  rw [cycle_of_running hrst, onNext_eq_next] at ht
  obtain ⟨u, hu, rfl⟩ := ht
  rw [hb, cond_false]
  exact (serve_onlyHostWritten_of_notCmd hc hu).sameEngine

end Sys2Proof.Machine

/-! PROOFS. The errors a CMD write reports (60_exceptions.md R271 to R278): which of the checks of R251 ends the write, and
what it leaves of the state. -/

namespace Sys2Proof.Machine

/-! The checks in their order (R251, R277). -/

theorem accepting_of_noContext {s : State} (hb : s.busy = false) (hv : s.status.ctxValid = false) {legal : Bool}
    (hl : legal = true) (effect : State → State) : accepting legal true s effect = raiseError .noContext 0 s := by
  simp [accepting, hb, hv, hl]

/-- An instruction other than NOP and INIT has the command word of one that needs a context. -/
theorem needsContext_of_decode {w : Word} {i : Instr} (h : decode w = .instr i) (hnop : i ≠ .nop) (hinit : i ≠ .init) :
    NeedsContext w := by
  obtain ⟨-, -, -, hop⟩ := (decode_eq_instr_iff w i).1 h
  show opField w ∈ [(0x2 : BitVec 4), 0x3]
  rw [hop]
  cases i with
  | nop => exact absurd rfl hnop
  | init => exact absurd rfl hinit
  | absorb cnt => exact List.mem_cons_self
  | digest => exact List.mem_cons_of_mem _ List.mem_cons_self

/-- R275: a legal ABSORB or DIGEST without a context. -/
theorem present_of_noContext {w : Word} (hw : LegalWord w) (hneeds : NeedsContext w) {s : State} (hb : s.busy = false)
    (hv : s.status.ctxValid = false) : present w s = .next (raiseError .noContext 0 s) := by
  obtain ⟨i, hd⟩ := (decode_isInstr_iff_legalWord w).2 hw
  obtain ⟨hwf, -⟩ := (decode_eq_instr_iff w i).1 hd
  obtain ⟨hnop, hinit⟩ := decode_needsContext hneeds hd
  rw [present_of_instr hd]
  cases i with
  | nop => exact absurd rfl hnop
  | init => exact absurd rfl hinit
  | absorb cnt => exact congrArg _ (accepting_of_noContext hb hv hwf _)
  | digest => exact congrArg _ (accepting_of_noContext hb hv rfl _)

/-- R251: a legal word that passes the checks of BUSY and of the context is an accepted command's. -/
theorem commandAccepted_of_decode {w : Word} {i : Instr} (h : decode w = .instr i) {s : State} (hb : s.busy = false)
    (hctx : NeedsContext w → s.status.ctxValid = true) : CommandAccepted i s := by
  obtain ⟨hwf, -⟩ := (decode_eq_instr_iff w i).1 h
  refine ⟨s.busy_eq_false.1 hb, ?_, fun hnop hinit => hctx (needsContext_of_decode h hnop hinit)⟩
  rintro cnt rfl
  exact of_decide_eq_true hwf

/-- R277: how a CMD write ends, the first check that fails deciding. -/
inductive PresentEnds (w : Word) (s : State) : State → Prop where
  | busyCmd : s.busy = true → PresentEnds w s (raiseError .busyCmd 0 s)
  | illegalCmd : s.busy = false → ¬ LegalWord w → PresentEnds w s (raiseError .illegalCmd 0 s)
  | noContext : s.busy = false → LegalWord w → NeedsContext w → s.status.ctxValid = false →
      PresentEnds w s (raiseError .noContext 0 s)
  | effect (i : Instr) : s.busy = false → LegalWord w → ¬ (NeedsContext w ∧ s.status.ctxValid = false) →
      decode w = .instr i → PresentEnds w s (commandEffect i s)

theorem present_ends (w : Word) (s : State) : ∃ t, present w s = .next t ∧ PresentEnds w s t := by
  cases hb : s.busy with
  | true => exact ⟨_, present_of_busy hb w, .busyCmd hb⟩
  | false =>
    cases hd : decode w with
    | rejected why =>
      have hw : ¬ LegalWord w := by
        rw [← decode_isInstr_iff_legalWord, hd]
        exact nofun
      exact ⟨_, present_of_rejected hd hb, .illegalCmd hb hw⟩
    | instr i =>
      have hw : LegalWord w := (decode_isInstr_iff_legalWord w).1 ⟨i, hd⟩
      by_cases hn : NeedsContext w ∧ s.status.ctxValid = false
      · obtain ⟨hneeds, hv⟩ := hn
        exact ⟨_, present_of_noContext hw hneeds hb hv, .noContext hb hw hneeds hv⟩
      · have hctx : NeedsContext w → s.status.ctxValid = true := fun h => eq_true_of_ne_false fun hv => hn ⟨h, hv⟩
        exact ⟨_, (present_of_instr hd s).trans (exec_of_accepted (commandAccepted_of_decode hd hb hctx)),
          .effect i hb hw hn hd⟩

/-- Settles O20. The refusal writes the host's part alone, and the controller's steps commute with that. -/
theorem busyCommandsAreRefused : Obligations.BusyCommandsAreRefused := by
  intro s w hb
  have hserve := (serve_cmd w s).trans (present_of_busy (s := s.withOut { ready := true, rdata := none }) hb w)
  refine ⟨_, hserve, rfl, fun n => ?_⟩
  obtain ⟨heq, -⟩ := serve_onlyHostWritten_of_busy hb hserve
  rw [heq, engineRun_withHost]
  exact State.sameEngine_withHost _ _

/-- Settles O21. -/
theorem commandsNeedAContext : Obligations.CommandsNeedAContext := by
  intro s w hb hv hw hneeds
  exact (serve_cmd w s).trans (present_of_noContext (s := s.withOut { ready := true, rdata := none }) hw hneeds hb hv)

/-! The error fields (R271, R272). -/

/-- What STATUS holds of an error. -/
def Status.error (st : Status) : Bool × ErrCode × BitVec 4 := (st.err, st.errCode, st.pcause)

theorem raiseError_error_of_clear {s : State} (h : s.status.err = false) (code : ErrCode) (pc : BitVec 4) :
    (raiseError code pc s).status.error = (true, code, pc) := by
  rw [raiseError_of_clear h]
  rfl

/-- R121: parameters are refused exactly when a constraint is violated. -/
theorem paramOK_eq_false_iff {param : Word} : paramOK param = false ↔ pcauseOf param ≠ 0 := beq_eq_false_iff_ne

/-- R273: an accepted command reports an error when it is INIT with invalid parameters. -/
theorem commandEffect_error_of_bad {s : State} (he : s.status.err = false) (hp : pcauseOf s.regs.param ≠ 0) :
    (commandEffect .init s).status.error = (true, .param, pcauseOf s.regs.param) := by
  rw [commandEffect, acceptInit_of_bad (paramOK_eq_false_iff.2 hp)]
  exact raiseError_error_of_clear (s := setCtxValid false (clearDvalid (latchInit s))) he _ _

/-- A command that is not INIT with invalid parameters reports no error. -/
theorem commandEffect_error_of_ok {i : Instr} {s : State} (h : ¬ (i = .init ∧ pcauseOf s.regs.param ≠ 0)) :
    (commandEffect i s).status.error = s.status.error := by
  cases i with
  | nop => rfl
  | init =>
    have hp : pcauseOf s.regs.param = 0 := by simpa using h
    rw [commandEffect, acceptInit_of_ok (by simp [paramOK, hp])]
    rfl
  | absorb cnt => rfl
  | digest => rfl

/-- R272: the first error recorded is kept by an accepted command. -/
theorem commandEffect_error_of_set {s : State} (he : s.status.err = true) (i : Instr) :
    (commandEffect i s).status.error = s.status.error := by
  by_cases h : i = .init ∧ pcauseOf s.regs.param ≠ 0
  · obtain ⟨rfl, hp⟩ := h
    rw [commandEffect, acceptInit_of_bad (paramOK_eq_false_iff.2 hp), raiseError_of_set (by exact he)]
    rfl
  · exact commandEffect_error_of_ok h

theorem PresentEnds.error_of_set {w : Word} {s t : State} (h : PresentEnds w s t) (he : s.status.err = true) :
    t.status.error = s.status.error := by
  cases h with
  | busyCmd => rw [raiseError_of_set he]
  | illegalCmd => rw [raiseError_of_set he]
  | noContext => rw [raiseError_of_set he]
  | effect i => exact commandEffect_error_of_set he i

/-- INIT's word is the legal one with OP = 0x1. -/
theorem op_eq_init_iff {w : Word} {i : Instr} (h : decode w = .instr i) : w.extractLsb' 0 4 = 0x1 ↔ i = .init := by
  obtain ⟨-, -, -, hop⟩ := (decode_eq_instr_iff w i).1 h
  show opField w = 0x1 ↔ i = .init
  rw [hop]
  cases i <;> simp [opCode]

/-- R277: with no error recorded, the error of the first check that fails is. -/
theorem PresentEnds.error_of_clear {w : Word} {s t : State} (h : PresentEnds w s t) (he : s.status.err = false) :
    t.status.error =
      if s.busy then (true, .busyCmd, 0)
      else if ¬ LegalWord w then (true, .illegalCmd, 0)
      else if NeedsContext w ∧ s.status.ctxValid = false then (true, .noContext, 0)
      else if w.extractLsb' 0 4 = 0x1 ∧ pcauseOf s.regs.param ≠ 0 then (true, .param, pcauseOf s.regs.param)
      else (false, s.status.errCode, s.status.pcause) := by
  cases h with
  | busyCmd hb => rw [if_pos hb, raiseError_error_of_clear he]
  | illegalCmd hb hw => rw [if_neg (by simp [hb]), if_pos hw, raiseError_error_of_clear he]
  | noContext hb hw hneeds hv =>
    rw [if_neg (by simp [hb]), if_neg (not_not.2 hw), if_pos ⟨hneeds, hv⟩, raiseError_error_of_clear he]
  | effect i hb hw hn hd =>
    rw [if_neg (by simp [hb]), if_neg (not_not.2 hw), if_neg hn]
    split_ifs with h <;> rw [op_eq_init_iff hd] at h
    · obtain ⟨rfl, hp⟩ := h
      exact commandEffect_error_of_bad he hp
    · rw [commandEffect_error_of_ok h, Status.error, he]

/-- Settles O22. -/
theorem oneErrorInPriorityOrder : Obligations.OneErrorInPriorityOrder := by
  intro s w
  obtain ⟨t, ht, hends⟩ := present_ends w (s.withOut { ready := true, rdata := none })
  refine ⟨t, (serve_cmd w s).trans ht, fun he => ?_, fun he => hends.error_of_clear he⟩
  have hkept := hends.error_of_set he
  simp only [Status.error, Prod.mk.injEq] at hkept
  obtain ⟨herr, hcode, hcause⟩ := hkept
  exact ⟨herr.trans he, hcode, hcause⟩

/-! What a refused write leaves (R273, R278). -/

/-- Settles O23. Recording an error writes the error fields alone; INIT has cleared two flags and latched its operands
before it records PARAM. -/
theorem errorsArePrecise : Obligations.ErrorsArePrecise := by
  intro s t w ht
  rw [serve_cmd] at ht
  refine ⟨fun hrefused => ?_, fun hb hw hp => ?_⟩
  · obtain ⟨code, hcode⟩ := present_refused (s := s.withOut { ready := true, rdata := none }) hrefused
    cases hcode.symm.trans ht
    rw [raiseError_out]
    exact raiseError_eq_withErrorOf code 0 _
  · have hdecode : decode w = .instr .init := (decode_eq_instr_iff_encode w .init).2 ⟨rfl, hw⟩
    rw [present_of_instr hdecode, exec_init_refused (by exact hb) (by exact hp)] at ht
    cases ht
    rw [raiseError_eq_withStatus]
    rfl

/-- R121: each bit of PCAUSE is one constraint's. -/
theorem getLsbD_pcauseOf (param : Word) :
    (pcauseOf param).getLsbD 0 = decide (8 < (slField param).toNat) ∧
      (pcauseOf param).getLsbD 1 = decide (8 < (plField param).toNat) ∧
      (pcauseOf param).getLsbD 2 = decide (32 < (klField param).toNat) ∧
      (pcauseOf param).getLsbD 3 = decide (32 < (dsField param).toNat) := by
  have hbits : ∀ a b c d : Bool, ∀ p : BitVec 4,
      p = BitVec.ofBool d ++ BitVec.ofBool c ++ BitVec.ofBool b ++ BitVec.ofBool a →
        p.getLsbD 0 = a ∧ p.getLsbD 1 = b ∧ p.getLsbD 2 = c ∧ p.getLsbD 3 = d := by decide
  exact hbits _ _ _ _ _ rfl

/-- Settles O24. -/
theorem badParametersAreRefused : Obligations.BadParametersAreRefused := by
  intro s hb hbad
  have hp : paramOK s.regs.param = false := Bool.eq_false_iff.2 fun hok => by
    obtain ⟨hds, hkl, hpl, hsl⟩ := (paramOK_iff _).1 hok
    omega
  refine ⟨_, exec_init_refused hb hp, (raiseError_busy ..).trans hb, raiseError_ctxValid .., raiseError_dvalid ..,
    raiseError_ctx .., raiseError_err .., fun he => ?_, fun he => ?_, raiseError_regs .., raiseError_dreg ..,
    raiseError_dp .., raiseError_ctrl .., raiseError_out .., raiseError_inputs .., raiseError_draws ..⟩
  · rw [raiseError_of_clear (by exact he)]
    exact ⟨rfl, getLsbD_pcauseOf _⟩
  · rw [raiseError_of_set (by exact he)]
    exact ⟨rfl, rfl⟩

end Sys2Proof.Machine

/-! PROOFS. Reset (70_reset_and_hazards.md R300, R302): STATUS and the reads of a state whose STATUS, operand registers
and `ctl` have their reset values, whatever the rest holds. -/

namespace Sys2Proof.Machine

theorem statusWord_of_reset {s : State} (hstatus : s.status = Status.reset) (hctl : s.ctrl.ctl = .idle) :
    s.statusWord = 0 := by
  have hidx : s.bufIdxField = 0 := bufIdxField_of_invalid (by rw [hstatus]; rfl)
  rw [State.statusWord, hidx, hstatus, s.busy_eq_false.2 hctl]
  rfl

/-- R302: every register reads 0, those that are unspecified being masked. -/
theorem readReg_of_reset {s : State} (hstatus : s.status = Status.reset) (hctl : s.ctrl.ctl = .idle)
    (hregs : s.regs = OperandRegs.reset) (reg : Reg) : readReg reg s = 0 := by
  have hcount := countWord_of_invalid (s := s) (by rw [hstatus]; rfl)
  cases reg with
  | status => exact statusWord_of_reset hstatus hctl
  | param => rw [readReg, hregs]; rfl
  | data => rw [readReg, hregs]; rfl
  | salt i => simp [readReg, hregs, OperandRegs.reset]
  | pers i => simp [readReg, hregs, OperandRegs.reset]
  | digest i => rw [readReg, hstatus]; rfl
  | countLo => exact hcount tLo
  | countHi => exact hcount tHi
  | cmd => rfl
  | key i => rfl
  | reserved => rfl

/-- Settles O7. -/
theorem resetEdge_abortsAndClears : Obligations.ResetEdge := by
  intro s c rest hin hrst
  refine ⟨_, (step_of_input hin).trans (cycle_of_reset hrst _), rfl, engineRun_of_idle rfl, statusWord_of_reset rfl rfl,
    rfl, rfl, rfl, rfl, rfl, rfl, rfl, fun i => ?_, fun i => ?_, rfl, fun hsel => hsel, fun hsel hwe => ?_⟩
  · simp [resetEdge, OperandRegs.reset]
  · simp [resetEdge, OperandRegs.reset]
  · simp [resetEdge, hsel, hwe]

/-- Settles O8. -/
theorem everyRegisterReadsZeroAfterReset : Obligations.EveryRegisterReadsZeroAfterReset := by
  refine ⟨fun off => (reads_iff _ off 0).2 ?_, rfl, rfl, rfl, fun i => by simp [OperandRegs.reset]⟩
  rw [readReg_of_reset rfl rfl rfl, ite_self]

end Sys2Proof.Machine
